-- ==== Sys2Proof/Word.lean ====
section
/-! DEFINITION. The two widths of the CIU: the 32-bit word (spec/00_scope.md R8, `XLEN`) and the 8-bit byte (R10). -/

namespace Sys2Proof

/-- A word of the command port and of every state register: 32 bits (R8, `XLEN` = 32). -/
abbrev Word := BitVec 32

/-- A byte of the fed stream or of a chunk type: 8 bits (R10). -/
abbrev Byte := BitVec 8

end Sys2Proof
end

