-- ==== Sys2Proof/Syntax.lean ====
section
/-! DEFINITION. What the host sends: a command as it stands on the port (two words), and the fifteen commands of
spec/30_encoding.md R65 with their operands taken (R63). -/

namespace Sys2Proof

/-- One transaction's two words as the port carries them, legal or not (R61, R67). -/
structure Command where
  /-- The command word, R62. -/
  cmd : Word
  /-- The operand word, R63. -/
  arg : Word
deriving DecidableEq, Repr

/-- The five ways a command takes its operand from `arg` (R63). -/
inductive OperandClass where
  | none
  | byte
  | word
  | type
  | value
deriving DecidableEq, Repr

/-- The fifteen legal commands of R65, one constructor for each row of the opcode table. A command of class `none` has no
argument here, one of class `byte` has one stream byte, the others the whole of `arg`. -/
inductive Instr where
  /-- NOP, 42_control.md R125. -/
  | nop
  /-- CRC_INIT, 41_crc.md R106. -/
  | crcInit
  /-- CRC_BYTE, 41_crc.md R107. -/
  | crcByte (b : Byte)
  /-- CRC_WORD, 41_crc.md R108. -/
  | crcWord (w : Word)
  /-- CRC_READ, 41_crc.md R109. -/
  | crcRead
  /-- CRC_CHECK, 41_crc.md R110. -/
  | crcCheck (expected : Word)
  /-- CRC_GETRAW, 41_crc.md R111. -/
  | crcGetraw
  /-- CRC_SETRAW, 41_crc.md R112. -/
  | crcSetraw (v : Word)
  /-- CHUNK_BEGIN, 41_crc.md R113. -/
  | chunkBegin (t : Word)
  /-- TYPE_LOAD, 40_chunk_type.md R85. -/
  | typeLoad (t : Word)
  /-- TYPE_FLAGS, 40_chunk_type.md R86. -/
  | typeFlags
  /-- TYPE_GET, 40_chunk_type.md R87. -/
  | typeGet
  /-- TYPE_EQ, 40_chunk_type.md R88. -/
  | typeEq (t : Word)
  /-- STAT_READ, 42_control.md R126. -/
  | statRead
  /-- STAT_CLEAR, 42_control.md R127. -/
  | statClear
deriving DecidableEq, Repr

/-- Why a command word is illegal (R64): one name for each of its two conditions. The machine answers both alike (R129). -/
inductive DecodeError where
  /-- `cmd[23:0]` is not zero. -/
  | mbzNotZero
  /-- `cmd[23:0]` is zero and `cmd[31:24]` is none of the fifteen opcodes. -/
  | opUnassigned
deriving DecidableEq, Repr

end Sys2Proof
end

