-- ==== Sys2Proof/Machine/Operands.lean ====
section
/-! DEFINITION. The fields of the two words of a command: the opcode and must-be-zero fields (spec/30_encoding.md R62), the
five operand classes (R63), and the big-endian byte order of a word (00_scope.md R10, 20_memory.md R42, R43). -/

namespace Sys2Proof.Machine

/-- `OP`, bits 31:24 of a command word (R62). -/
def opField (cmd : Word) : BitVec 8 := cmd.extractLsb' 24 8

/-- `MBZ`, bits 23:0 of a command word (R62). -/
def mbzField (cmd : Word) : BitVec 24 := cmd.extractLsb' 0 24

/-- The fifteen assigned opcodes (R65). -/
def assignedOps : List (BitVec 8) :=
  [0x00, 0x01, 0x02, 0x03, 0x04, 0x05, 0x06, 0x07, 0x08, 0x10, 0x11, 0x12, 0x13, 0x20, 0x21]

/-- `byte(w, i)` of R10: `w[31−8i : 24−8i]`, so byte 0 is the most significant byte. -/
def byteOf (w : Word) (i : Fin 4) : Byte := w.extractLsb' (24 - 8 * i.val) 8

/-- `be32` of R10: four bytes in stream order as a word, `b0·2^24 + b1·2^16 + b2·2^8 + b3`. -/
def be32 (b0 b1 b2 b3 : Byte) : Word :=
  BitVec.ofNat 32 (b0.toNat * 2 ^ 24 + b1.toNat * 2 ^ 16 + b2.toNat * 2 ^ 8 + b3.toNat)

/-- The four stream bytes of a word operand, or the four type bytes of a type operand, in stream order (R42, R43). -/
def streamBytes (w : Word) : List Byte := [byteOf w 0, byteOf w 1, byteOf w 2, byteOf w 3]

/-- The operand of class `byte`: `arg[7:0]` (R63). -/
def byteOperand (arg : Word) : Byte := arg.extractLsb' 0 8

/-- The bits of `arg` that a class uses, the ignored ones cleared (R63). -/
def usedArg : OperandClass → Word → Word
  | .none, _ => 0
  | .byte, arg => arg &&& 0x000000FF
  | .word, arg => arg
  | .type, arg => arg
  | .value, arg => arg

/-- The operand class of each command (R65). -/
def operandClass : Instr → OperandClass
  | .nop => .none
  | .crcInit => .none
  | .crcByte _ => .byte
  | .crcWord _ => .word
  | .crcRead => .none
  | .crcCheck _ => .value
  | .crcGetraw => .none
  | .crcSetraw _ => .value
  | .chunkBegin _ => .type
  | .typeLoad _ => .type
  | .typeFlags => .none
  | .typeGet => .none
  | .typeEq _ => .type
  | .statRead => .none
  | .statClear => .none

end Sys2Proof.Machine
end

