-- ==== Sys2Proof/WellFormed.lean ====
section
/-! DEFINITION. When a command as it stands on the port is legal: spec/30_encoding.md R64. `arg` plays no part. A term of
`Instr` needs no check: its operands have the width their class takes (R63), and no operand value is illegal. -/

namespace Sys2Proof

/-- Condition 1 of R64: `cmd[23:0] = 0`. -/
def Command.mbzIsZero (c : Command) : Bool := Machine.mbzField c.cmd == 0

/-- Condition 2 of R64: `cmd[31:24]` is one of the fifteen opcode values of R65. -/
def Command.opIsAssigned (c : Command) : Bool := Machine.assignedOps.contains (Machine.opField c.cmd)

/-- A legal command (R64). -/
def Command.wellFormed (c : Command) : Bool := c.mbzIsZero && c.opIsAssigned

end Sys2Proof
end

