-- ==== Sys2Proof/Decode.lean ====
section
/-! DEFINITION. The decoder and, after it, the encoder of spec/30_encoding.md: decode looks at `cmd` alone and is total (R64,
R128); the encoder writes R65's words and the operand words of R68. -/

namespace Sys2Proof

open Machine

/-- The command an opcode stands for, with its operand taken from `arg` (R65, R63); none for the 241 reserved opcodes (R66). -/
def instrOfOp (op : BitVec 8) (arg : Word) : Option Instr :=
  match op with
  | 0x00#8 => some .nop
  | 0x01#8 => some .crcInit
  | 0x02#8 => some (.crcByte (byteOperand arg))
  | 0x03#8 => some (.crcWord arg)
  | 0x04#8 => some .crcRead
  | 0x05#8 => some (.crcCheck arg)
  | 0x06#8 => some .crcGetraw
  | 0x07#8 => some (.crcSetraw arg)
  | 0x08#8 => some (.chunkBegin arg)
  | 0x10#8 => some (.typeLoad arg)
  | 0x11#8 => some .typeFlags
  | 0x12#8 => some .typeGet
  | 0x13#8 => some (.typeEq arg)
  | 0x20#8 => some .statRead
  | 0x21#8 => some .statClear
  | _ => none

/-- Decode of a command, in the order of R128: the must-be-zero field first, then the opcode. Every pair of words is one of
the fifteen commands or illegal by name (R64). -/
def decode (c : Command) : Except DecodeError Instr :=
  if mbzField c.cmd = 0 then
    match instrOfOp (opField c.cmd) c.arg with
    | some i => .ok i
    | none => .error .opUnassigned
  else .error .mbzNotZero

/-- The words of a command: the match word of R65, and the operand word of R68 (zero where there is no operand, a byte
zero-extended). -/
def encode : Instr → Command
  | .nop => ⟨0x00000000, 0⟩
  | .crcInit => ⟨0x01000000, 0⟩
  | .crcByte b => ⟨0x02000000, b.setWidth 32⟩
  | .crcWord w => ⟨0x03000000, w⟩
  | .crcRead => ⟨0x04000000, 0⟩
  | .crcCheck v => ⟨0x05000000, v⟩
  | .crcGetraw => ⟨0x06000000, 0⟩
  | .crcSetraw v => ⟨0x07000000, v⟩
  | .chunkBegin t => ⟨0x08000000, t⟩
  | .typeLoad t => ⟨0x10000000, t⟩
  | .typeFlags => ⟨0x11000000, 0⟩
  | .typeGet => ⟨0x12000000, 0⟩
  | .typeEq t => ⟨0x13000000, t⟩
  | .statRead => ⟨0x20000000, 0⟩
  | .statClear => ⟨0x21000000, 0⟩

/-- The two words of a transaction read from one number: the `cmd` word is its low 32 bits and the `arg` word the 32 bits
above, the bits from `nbits` up being zero. -/
def commandOfBits (nbits w : Nat) : Command :=
  ⟨BitVec.ofNat 32 (w % 2 ^ nbits), BitVec.ofNat 32 ((w % 2 ^ nbits) >>> 32)⟩

/-- The instruction the decoder reads from an instruction whose bits are `w`, numbered as the opcode table numbers them. -/
def decodeTableWord (nbits w : Nat) : Option Instr :=
  match decode (commandOfBits nbits w) with
  | .ok i => some i
  | .error _ => none

end Sys2Proof
end

