-- ==== Sys2Proof/Machine/Crc.lean ====
section
/-! DEFINITION. The CRC-32 functions of spec/41_crc.md R101 to R104, with the parameters of 00_scope.md R2. All are pure and
total (R14). -/

namespace Sys2Proof.Machine

/-- The all-ones initial value (R2). -/
def crcInitial : Word := 0xFFFFFFFF

/-- The final XOR value (R2, R102). -/
def crcFinalXor : Word := 0xFFFFFFFF

/-- The polynomial in normal form (R2). -/
def polyNormal : Word := 0x04C11DB7

/-- The polynomial in reflected form (R2, R101). -/
def polyReflected : Word := 0xEDB88320

/-- One turn of the loop of R101: shift right, and XOR the reflected polynomial in if a one fell out. -/
def crcShift (c : Word) : Word :=
  if c.getLsbD 0 then (c >>> 1) ^^^ polyReflected else c >>> 1

/-- The loop of R101, `n` turns. -/
def crcShifts : Nat → Word → Word
  | 0, c => c
  | n + 1, c => crcShifts n (crcShift c)

/-- `CrcStep8` of R101: the remainder after one byte, its least significant bit first (R45). -/
def crcStep8 (c : Word) (b : Byte) : Word := crcShifts 8 (c ^^^ b.setWidth 32)

/-- `Finalize` of R102. -/
def finalize (c : Word) : Word := c ^^^ crcFinalXor

/-- `CrcUpdate` of R103: the remainder after a byte sequence. -/
def crcUpdate (c : Word) : List Byte → Word
  | [] => c
  | b :: bs => crcUpdate (crcStep8 c b) bs

/-- `Crc32` of R103. -/
def crc32 (m : List Byte) : Word := finalize (crcUpdate crcInitial m)

/-- The loop of CRC_WORD and CHUNK_BEGIN (R108, R113): the four bytes of a word, in stream order. -/
def crcFeedWord (c w : Word) : Word := crcUpdate c (streamBytes w)

/-- `T[n]` of R104, form 1. -/
def crcTable (n : Byte) : Word := crcStep8 0 n

/-- The table form of `CrcStep8` (R104, form 1). -/
def crcStep8ByTable (c : Word) (b : Byte) : Word :=
  (c >>> 8) ^^^ crcTable (byteOperand ((c ^^^ b.setWidth 32) &&& 0x000000FF))

/-- One turn of the loop of the normal form (R104, form 2). -/
def normalShift (c : Word) : Word :=
  if c.getLsbD 31 then (c <<< 1) ^^^ polyNormal else c <<< 1

/-- The loop of the normal form, `n` turns. -/
def normalShifts : Nat → Word → Word
  | 0, c => c
  | n + 1, c => normalShifts n (normalShift c)

/-- One byte of the normal form: `b` is a stream byte, reversed here before it enters at the top (R104, form 2). -/
def normalStep8 (c : Word) (b : Byte) : Word := normalShifts 8 (c ^^^ (b.reverse.setWidth 32 <<< 24))

/-- The non-reflected remainder over a byte sequence (R104, form 2). -/
def normalUpdate (c : Word) : List Byte → Word
  | [] => c
  | b :: bs => normalUpdate (normalStep8 c b) bs

/-- `Crc32` by the normal, most-significant-bit-first form (R104, form 2). -/
def crc32Normal (m : List Byte) : Word := (normalUpdate 0xFFFFFFFF m).reverse ^^^ 0xFFFFFFFF

end Sys2Proof.Machine
end

