-- ==== Sys2Proof/Config.lean ====
section
/-! DEFINITION. The implementation parameters of spec/00_scope.md R8.

`XLEN` is the width of `Word`. The one port and the one outstanding command are the shape of `Machine.Port`.
`CMD_LATENCY` (open, at least 1, finite, may differ from one command to the next: R8, R169) is no number here: each
sample of `Machine.State.inputs` says whether the command in flight is still being worked on at that edge, so every
latency of every command is some list of samples, and a statement about every state holds for all of them
(notes/assumptions/2.md). -/

namespace Sys2Proof.Config

/-- `TYPE_BYTES` of R8: the bytes of a chunk type, and of every word operand. -/
def typeBytes : Nat := 4

/-- `L_MAX` of R8: the largest payload of a chunk, in bytes. The CIU neither counts bytes nor enforces the bound (R8, D18). -/
def lMax : Nat := 2 ^ 31 - 1

end Sys2Proof.Config
end

