-- ==== Sys2Proof/Machine/State.lean ====
section
/-! DEFINITION. The machine's state as plain data: the three registers of spec/10_state.md R20, the phase of the command port
(R26, R32; 70_reset_and_hazards.md R160, R168, R170), and the record of the outside world that a claim speaks of. The CIU has
no memory (20_memory.md R40), no register file (10_state.md R27) and no program counter (R28). -/

namespace Sys2Proof.Machine

/-- The three errors of 60_exceptions.md R135. -/
inductive ErrorKind where
  /-- R136: an illegal command word. -/
  | illegalCommand
  /-- R137: a type operand with a byte that is not a letter. -/
  | invalidChunkType
  /-- R138: an expected CRC that differs from the computed one. -/
  | crcMismatch
deriving DecidableEq, Repr

/-- The response codes of 60_exceptions.md R135: OK, or an error. -/
inductive RspCode where
  | ok
  | error (e : ErrorKind)
deriving DecidableEq, Repr

/-- A response: `rsp_code` and `rsp_data` (10_state.md R26). -/
structure Response where
  code : RspCode
  data : Word
deriving DecidableEq, Repr

/-- `STATUS`: its three defined bits, all sticky (10_state.md R24). Bits 31:3 are no storage. -/
structure Status where
  /-- Bit 0, `CRC_ERR`. -/
  crcErr : Bool
  /-- Bit 1, `TYPE_ERR`. -/
  typeErr : Bool
  /-- Bit 2, `CMD_ERR`. -/
  cmdErr : Bool
deriving DecidableEq, Repr

/-- The phase of the command port. At most one command is outstanding (30_encoding.md R61), so one of these holds. -/
inductive Port where
  /-- The last edge saw `rst` high (70_reset_and_hazards.md R160). -/
  | inReset
  /-- Out of reset, no command in flight, no response waiting (R170). -/
  | ready
  /-- A command is accepted and its response does not exist yet (10_state.md R32). -/
  | inFlight (c : Command)
  /-- A response waits to be taken (R168). -/
  | response (r : Response)
deriving DecidableEq, Repr

/-- What one rising edge of `clk` sees: the input pins of 30_encoding.md R60, and the CIU's own open timing. -/
structure Edge where
  /-- `rst`. -/
  rst : Bool
  /-- `cmd_valid`. -/
  cmdValid : Bool
  /-- `cmd`. -/
  cmd : Word
  /-- `arg`. -/
  arg : Word
  /-- `rsp_ready`. -/
  rspReady : Bool
  /-- No pin: a command in flight does not complete at this edge (`CMD_LATENCY`, R8, R169; log entry 2). -/
  busy : Bool
deriving DecidableEq, Repr

/-- The state of the CIU, and the record of its surroundings. -/
structure State where
  /-- `CRC_STATE`, the running remainder before the final XOR (R21). -/
  crcState : Word
  /-- `TYPE_REG`, the chunk type last loaded (R22). -/
  typeReg : Word
  /-- `STATUS` (R24). -/
  status : Status
  /-- The command port's phase, with the command in flight or the response that waits. -/
  port : Port
  /-- MODEL: what the coming edges see, the next first (log entries 2 and 3). -/
  inputs : List Edge
  /-- MODEL: the commands performed since reset, oldest first; its length is the index of R28 (log entry 4). -/
  performed : List Command
  /-- MODEL: the responses the host has taken since reset, oldest first (R131; log entry 4). -/
  taken : List Response
deriving DecidableEq, Repr

/-- Why the machine stops with a fault. The CIU "has no fault state, no lock-up" (60_exceptions.md R152): there is none. -/
inductive Fault where
deriving DecidableEq, Repr

/-- Why an instruction has no meaning. -/
inductive Refusal where
  /-- Raised by an arm of exec whose instruction has no meaning yet: none has this outcome. Safe. -/
  | notModelled (mnemonic : String)
deriving DecidableEq, Repr

/-- `STATUS` with no bit set. -/
def Status.clear : Status := ⟨false, false, false⟩

/-- The machine right after reset (R33, R160): the first edge with `rst` low has passed, the port is ready, and the host has
presented nothing. -/
def State.reset : State where
  crcState := 0xFFFFFFFF
  typeReg := 0x00000000
  status := Status.clear
  port := .ready
  inputs := []
  performed := []
  taken := []

end Sys2Proof.Machine
end

