-- ==== Sys2Proof/Machine/Flags.lean ====
section
/-! DEFINITION. Every flag the spec gives: the chunk-type functions and the flag word of spec/40_chunk_type.md R75 to R84, the
`STATUS` word of 10_state.md R24, and the numbers of the response codes of 60_exceptions.md R135. -/

namespace Sys2Proof.Machine

/-- `LetterOk` (R75). -/
def letterOk (b : Byte) : Bool :=
  (decide (0x41#8 ≤ b) && decide (b ≤ 0x5A#8)) || (decide (0x61#8 ≤ b) && decide (b ≤ 0x7A#8))

/-- `Letters` (R76). -/
def letters (t : Word) : Bool :=
  letterOk (byteOf t 0) && letterOk (byteOf t 1) && letterOk (byteOf t 2) && letterOk (byteOf t 3)

/-- `Critical` (R77): bit 5 of type byte 0 is clear. -/
def critical (t : Word) : Bool := !(byteOf t 0).getLsbD 5

/-- `Public` (R78): bit 5 of type byte 1 is clear. -/
def isPublic (t : Word) : Bool := !(byteOf t 1).getLsbD 5

/-- `ReservedOk` (R79): bit 5 of type byte 2 is clear. -/
def reservedOk (t : Word) : Bool := !(byteOf t 2).getLsbD 5

/-- `SafeToCopy` (R80): bit 5 of type byte 3 is set. -/
def safeToCopy (t : Word) : Bool := (byteOf t 3).getLsbD 5

/-- `Valid` (R81; 90_conflicts.md C5). -/
def valid (t : Word) : Bool := letters t && reservedOk t

/-- A word with bit `k` holding `b` and every other bit 0. -/
def flagBit (k : Nat) (b : Bool) : Word := if b then 1#32 <<< k else 0#32

/-- `TFlags` (R82), a view of a type word and no storage (10_state.md R23). -/
def tflags (t : Word) : Word :=
  flagBit 11 (letterOk (byteOf t 3)) ||| flagBit 10 (letterOk (byteOf t 2)) ||| flagBit 9 (letterOk (byteOf t 1)) |||
    flagBit 8 (letterOk (byteOf t 0)) ||| flagBit 5 (valid t) ||| flagBit 4 (safeToCopy t) ||| flagBit 3 (reservedOk t) |||
    flagBit 2 (isPublic t) ||| flagBit 1 (critical t) ||| flagBit 0 (letters t)

/-- `TypeEq` (R84): all 32 bits, no case folding. -/
def typeEq (a b : Word) : Bool := a == b

/-- `STATUS` as a 32-bit word (R24, R126). -/
def statusWord (st : Status) : Word := flagBit 2 st.cmdErr ||| flagBit 1 st.typeErr ||| flagBit 0 st.crcErr

/-- The sticky bit an error sets, the others as they are (R135, R136 to R138). -/
def setSticky : ErrorKind → Status → Status
  | .illegalCommand, st => { st with cmdErr := true }
  | .invalidChunkType, st => { st with typeErr := true }
  | .crcMismatch, st => { st with crcErr := true }

/-- `rsp_code[1:0]` (R135). -/
def rspCodeBits : RspCode → BitVec 2
  | .ok => 0
  | .error .illegalCommand => 1
  | .error .invalidChunkType => 2
  | .error .crcMismatch => 3

end Sys2Proof.Machine
end

