-- ==== Sys2Proof/Machine/Ops.lean ====
section
/-! DEFINITION. The named operations over the registers and the response: `R <- v`, `respond` and `raise` of
spec/00_scope.md R11 and R12. The CIU has no memory (20_memory.md R40), so no operation reads or writes one. It takes no trap
and returns from none (60_exceptions.md R143, R144): `raise` is all that an error does. -/

namespace Sys2Proof.Machine

/-- `CRC_STATE <- v` (R11). -/
def writeCrc (v : Word) (s : State) : State := { s with crcState := v }

/-- `TYPE_REG <- v` (R11). -/
def writeType (v : Word) (s : State) : State := { s with typeReg := v }

/-- All three `STATUS` bits at once (R127). -/
def writeStatus (st : Status) (s : State) : State := { s with status := st }

/-- `respond(code, data)` (R11): the response stands on the port until the host takes it (70_reset_and_hazards.md R168). -/
def respond (code : RspCode) (data : Word) (s : State) : State := { s with port := .response ⟨code, data⟩ }

/-- `raise E(data)` (R12): the response with the error's code, and its sticky bit. It undoes no write of the command. -/
def raise (e : ErrorKind) (data : Word) (s : State) : State :=
  respond (.error e) data (writeStatus (setSticky e s.status) s)

/-- The answer of TYPE_LOAD and CHUNK_BEGIN to their type operand (R85, R113, R137): its flag word, as an error when a byte is
no letter. -/
def answerType (t : Word) (s : State) : State :=
  if letters t then respond .ok (tflags t) s else raise .invalidChunkType (tflags t) s

/-- The answer of CRC_CHECK (R110, R138): the computed CRC, as an error when the expected one differs. -/
def answerCheck (expected : Word) (s : State) : State :=
  if expected = finalize s.crcState then respond .ok (finalize s.crcState) s
  else raise .crcMismatch (finalize s.crcState) s

end Sys2Proof.Machine
end

