-- ==== Sys2Proof/Machine/Control.lean ====
section
/-! DEFINITION. The control commands and the illegal-command arm, spec/42_control.md. -/

namespace Sys2Proof.Machine

/-- NOP (R125). -/
def execNop (s : State) : Host.Outcome State Fault Refusal := .next (respond .ok 0 s)

/-- STAT_READ (R126). -/
def execStatRead (s : State) : Host.Outcome State Fault Refusal := .next (respond .ok (statusWord s.status) s)

/-- STAT_CLEAR (R127): the answer is `STATUS` before the clear. -/
def execStatClear (s : State) : Host.Outcome State Fault Refusal :=
  .next (respond .ok (statusWord s.status) (writeStatus Status.clear s))

/-- What every illegal command word does (R129, R136): nothing but the error. -/
def illegalCommandArm (s : State) : Host.Outcome State Fault Refusal := .next (raise .illegalCommand 0 s)

end Sys2Proof.Machine
end

