-- ==== Sys2Proof/Machine/Crcg.lean ====
section
/-! DEFINITION. The commands of the CRC-32 generator, spec/41_crc.md. -/

namespace Sys2Proof.Machine

/-- CRC_INIT (R106). -/
def execCrcInit (s : State) : Host.Outcome State Fault Refusal := .next (respond .ok 0 (writeCrc crcInitial s))

/-- CRC_BYTE (R107). -/
def execCrcByte (b : Byte) (s : State) : Host.Outcome State Fault Refusal :=
  .next (respond .ok 0 (writeCrc (crcStep8 s.crcState b) s))

/-- CRC_WORD (R108). -/
def execCrcWord (w : Word) (s : State) : Host.Outcome State Fault Refusal :=
  .next (respond .ok 0 (writeCrc (crcFeedWord s.crcState w) s))

/-- CRC_READ (R109). -/
def execCrcRead (s : State) : Host.Outcome State Fault Refusal := .next (respond .ok (finalize s.crcState) s)

/-- CRC_CHECK (R110). -/
def execCrcCheck (expected : Word) (s : State) : Host.Outcome State Fault Refusal := .next (answerCheck expected s)

/-- CRC_GETRAW (R111). -/
def execCrcGetraw (s : State) : Host.Outcome State Fault Refusal := .next (respond .ok s.crcState s)

/-- CRC_SETRAW (R112). -/
def execCrcSetraw (v : Word) (s : State) : Host.Outcome State Fault Refusal := .next (respond .ok 0 (writeCrc v s))

/-- CHUNK_BEGIN (R113): both registers are written, whether or not the type is four letters. -/
def execChunkBegin (t : Word) (s : State) : Host.Outcome State Fault Refusal :=
  .next (answerType t (writeCrc (crcFeedWord crcInitial t) (writeType t s)))

end Sys2Proof.Machine
end

