-- ==== Sys2Proof/Machine/Ctfe.lean ====
section
/-! DEFINITION. The commands of the chunk-type flag extractor, spec/40_chunk_type.md. -/

namespace Sys2Proof.Machine

/-- TYPE_LOAD (R85): the register is written even when the type is not four letters. -/
def execTypeLoad (t : Word) (s : State) : Host.Outcome State Fault Refusal := .next (answerType t (writeType t s))

/-- TYPE_FLAGS (R86). -/
def execTypeFlags (s : State) : Host.Outcome State Fault Refusal := .next (respond .ok (tflags s.typeReg) s)

/-- TYPE_GET (R87). -/
def execTypeGet (s : State) : Host.Outcome State Fault Refusal := .next (respond .ok s.typeReg s)

/-- TYPE_EQ (R88). -/
def execTypeEq (t : Word) (s : State) : Host.Outcome State Fault Refusal :=
  .next (respond .ok (if typeEq s.typeReg t then 1 else 0) s)

end Sys2Proof.Machine
end

