-- ==== Sys2Proof/Machine/Dispatch.lean ====
section
/-! DEFINITION. One arm for each command of spec/30_encoding.md R65, as spec/42_control.md R128 dispatches them. -/

namespace Sys2Proof.Machine

def exec (i : Instr) (s : State) : Host.Outcome State Fault Refusal :=
  match i with
  | .nop => Sys2Proof.Machine.execNop s
  | .crcInit => Sys2Proof.Machine.execCrcInit s
  | .crcByte b => Sys2Proof.Machine.execCrcByte b s
  | .crcWord w => Sys2Proof.Machine.execCrcWord w s
  | .crcRead => Sys2Proof.Machine.execCrcRead s
  | .crcCheck expected => Sys2Proof.Machine.execCrcCheck expected s
  | .crcGetraw => Sys2Proof.Machine.execCrcGetraw s
  | .crcSetraw v => Sys2Proof.Machine.execCrcSetraw v s
  | .chunkBegin t => Sys2Proof.Machine.execChunkBegin t s
  | .typeLoad t => Sys2Proof.Machine.execTypeLoad t s
  | .typeFlags => Sys2Proof.Machine.execTypeFlags s
  | .typeGet => Sys2Proof.Machine.execTypeGet s
  | .typeEq t => Sys2Proof.Machine.execTypeEq t s
  | .statRead => Sys2Proof.Machine.execStatRead s
  | .statClear => Sys2Proof.Machine.execStatClear s

end Sys2Proof.Machine
end

