-- ==== Sys2Proof/Machine/Command.lean ====
section
/-! DEFINITION. One command from decode to response, and a program as a list of commands: `Step` and its left fold,
spec/42_control.md R128, R131. -/

namespace Sys2Proof.Machine

/-- `Step(state, cmd, arg)` of R128: the decoded command, or the illegal-command arm. The response stands in `port`. -/
def perform (c : Command) (s : State) : Host.Outcome State Fault Refusal :=
  match decode c with
  | .ok i => exec i s
  | .error _ => illegalCommandArm s

/-- MODEL: the command enters the record of those performed; the index of 10_state.md R28 advances by 1. -/
def record (c : Command) (s : State) : State := { s with performed := s.performed ++ [c] }

/-- The response on the port, if one waits there (R26). -/
def waitingResponse (s : State) : Option Response :=
  match s.port with
  | .inReset => none
  | .ready => none
  | .inFlight _ => none
  | .response r => some r

/-- The host takes the response that waits (70_reset_and_hazards.md R168): it goes to the list of R131, the port is ready. -/
def takeResponse (s : State) : State :=
  match waitingResponse s with
  | some r => { s with port := .ready, taken := s.taken ++ [r] }
  | none => s

/-- The list of every response in order (R131): those taken, then the one that waits. -/
def responseList (s : State) : List Response := s.taken ++ (waitingResponse s).toList

/-- One whole transaction without its timing (30_encoding.md R61): performed, recorded, its response taken. -/
def transact (c : Command) (s : State) : Host.Outcome State Fault Refusal :=
  match perform c (record c s) with
  | .next t => .next (takeResponse t)
  | .fault f => .fault f
  | .refused r => .refused r

/-- A program's result (R128, R131): the left fold of `Step` over its commands, every response taken. -/
def runProgram : List Command → State → Host.Outcome State Fault Refusal
  | [], s => .next s
  | c :: cs, s =>
    match transact c s with
    | .next t => runProgram cs t
    | .fault f => .fault f
    | .refused r => .refused r

end Sys2Proof.Machine
end

