-- ==== Sys2Proof/Machine/Port.lean ====
section
/-! DEFINITION. The command port at one rising edge of `clk`: reset, acceptance, completion and the taking of a response,
spec/30_encoding.md R60, R61 and spec/70_reset_and_hazards.md R160 to R170. -/

namespace Sys2Proof.Machine

/-- MODEL: what an edge sees once the listed samples are used up: every input low, and a command in flight completes. -/
def idleEdge : Edge := ⟨false, false, 0, 0, false, false⟩

/-- What the next edge sees. -/
def nextEdge (s : State) : Edge :=
  match s.inputs with
  | [] => idleEdge
  | e :: _ => e

/-- The sample of the edge is used. -/
def popEdge (s : State) : State := { s with inputs := s.inputs.tail }

/-- The output `cmd_ready`, given the level of `rst` (R160, R170). -/
def cmdReady (rst : Bool) (s : State) : Bool :=
  match s.port with
  | .inReset => false
  | .ready => !rst
  | .inFlight _ => false
  | .response _ => false

/-- The outputs `rsp_valid`, `rsp_code` and `rsp_data`, given the level of `rst`: a response is driven or none is (R160, R168). -/
def rspOut (rst : Bool) (s : State) : Option Response := if rst then none else waitingResponse s

/-- The output `rsp_valid` (R160, R168). -/
def rspValid (rst : Bool) (s : State) : Bool := (rspOut rst s).isSome

/-- An edge with `rst` high (R160, R162): every register to its reset value, what was in flight or waiting is lost, and the
model's record of the run starts anew. -/
def resetEdge (s : State) : State :=
  { s with
    crcState := 0xFFFFFFFF, typeReg := 0x00000000, status := Status.clear, port := .inReset, performed := [], taken := [] }

/-- The port holds the accepted command (R170). -/
def accept (c : Command) (s : State) : State := { s with port := .inFlight c }

/-- The port is ready for a command (R160). -/
def release (s : State) : State := { s with port := .ready }

/-- One rising edge with the inputs `e` (R160, R168 to R170). A command in flight is performed at the edge where it completes,
as one indivisible change of state (00_scope.md R13; log entry 1). -/
def clockEdge (e : Edge) (s : State) : Host.Outcome State Fault Refusal :=
  if e.rst then .next (resetEdge s)
  else
    match s.port with
    | .inReset => .next (release s)
    | .ready => .next (if e.cmdValid then accept ⟨e.cmd, e.arg⟩ s else s)
    | .inFlight c => if e.busy then .next s else perform c (record c s)
    | .response _ => .next (if e.rspReady then takeResponse s else s)

/-- The samples with the next one made an edge that neither resets nor stays busy. -/
def letComplete : List Edge → List Edge
  | [] => []
  | e :: es => { e with rst := false, busy := false } :: es

end Sys2Proof.Machine
end

