-- ==== Sys2Proof/Machine/Step.lean ====
section
/-! DEFINITION. One step of the machine: one rising edge of `clk` (spec/30_encoding.md R60), its inputs taken from the state. -/

namespace Sys2Proof.Machine

/-- One step. -/
def step (s : State) : Host.Outcome State Fault Refusal := clockEdge (nextEdge s) (popEdge s)

/-- `s` with the instruction whose bits are `w` accepted and completing at the next edge: a command has no address to be
fetched from, it stands in flight on the port (R61, R170; log entry 3). -/
def State.withFetchWord (s : State) (nbits w : Nat) : State :=
  { s with port := .inFlight (commandOfBits nbits w), inputs := letComplete s.inputs }

end Sys2Proof.Machine
end

