-- ==== Sys2Proof/Machine/Assembler.lean ====
section
/-! DEFINITION. The assembly lines, pseudo-instructions and listing form of spec/30_encoding.md R68, R69, R70. Text is a list of
characters. -/

namespace Sys2Proof.Machine

/-- `CRC_BYTES` of R69: words while four bytes are left, then single bytes. -/
def crcBytes : List Byte → List Instr
  | b0 :: b1 :: b2 :: b3 :: bs => .crcWord (be32 b0 b1 b2 b3) :: crcBytes bs
  | bs => bs.map .crcByte

/-- `CHUNK_CRC` of R69. -/
def chunkCrc (t : Word) (bs : List Byte) : List Instr := .chunkBegin t :: crcBytes bs ++ [.crcRead]

/-- `CHUNK_VERIFY` of R69. -/
def chunkVerify (t c : Word) (bs : List Byte) : List Instr := .chunkBegin t :: crcBytes bs ++ [.crcCheck c]

/-- `CLR` of R69. -/
def clr : List Instr := [.statClear]

/-- The parts of a line. -/
inductive Token where
  /-- A mnemonic or a number. -/
  | bare (cs : List Char)
  /-- A character in single quotes. -/
  | chr (b : Byte)
  /-- A string in double quotes. -/
  | str (bs : List Byte)
  | comma
deriving DecidableEq, Repr

/-- Where the reader of a line stands: between parts, inside a bare part, inside a string (what it has read, last first). -/
inductive LexMode where
  | gap
  | bare (cs : List Char)
  | str (bs : List Byte)

/-- The byte of a character's ASCII code. -/
def asciiByte (c : Char) : Option Byte := if c.toNat < 128 then some (BitVec.ofNat 8 c.toNat) else none

/-- The parts of a line up to its comment (R68); none where a quote is not closed or a character is not ASCII. -/
def lexLine : LexMode → List Char → Option (List Token)
  | .gap, [] => some []
  | .bare cs, [] => some [.bare cs.reverse]
  | .str _, [] => none
  | .str bs, c :: rest =>
    if c = '"' then (lexLine .gap rest).map (.str bs.reverse :: ·)
    else (asciiByte c).bind fun b => lexLine (.str (b :: bs)) rest
  | .bare cs, c :: rest =>
    if c = ';' then some [.bare cs.reverse]
    else if c = ' ' then (lexLine .gap rest).map (.bare cs.reverse :: ·)
    else if c = ',' then (lexLine .gap rest).map (.bare cs.reverse :: .comma :: ·)
    else if c.isAlphanum || c = '_' then lexLine (.bare (c :: cs)) rest
    else none
  | .gap, '\'' :: c :: '\'' :: rest => (asciiByte c).bind fun b => (lexLine .gap rest).map (.chr b :: ·)
  | .gap, c :: rest =>
    if c = ';' then some []
    else if c = ' ' then lexLine .gap rest
    else if c = ',' then (lexLine .gap rest).map (.comma :: ·)
    else if c = '"' then lexLine (.str []) rest
    else if c.isAlphanum || c = '_' then lexLine (.bare [c]) rest
    else none

/-- The value of a digit. -/
def digitValue (c : Char) : Option Nat :=
  if '0' ≤ c ∧ c ≤ '9' then some (c.toNat - '0'.toNat)
  else if 'a' ≤ c ∧ c ≤ 'f' then some (c.toNat - 'a'.toNat + 10)
  else if 'A' ≤ c ∧ c ≤ 'F' then some (c.toNat - 'A'.toNat + 10)
  else none

/-- Digits in a base, the most significant first, onto what is read so far. -/
def readDigits (base : Nat) : Nat → List Char → Option Nat
  | n, [] => some n
  | n, c :: cs => (digitValue c).bind fun d => if d < base then readDigits base (n * base + d) cs else none

/-- A number: hexadecimal with `0x`, or decimal (R68). -/
def readNumber : List Char → Option Nat
  | '0' :: 'x' :: c :: cs => readDigits 16 0 (c :: cs)
  | c :: cs => readDigits 10 0 (c :: cs)
  | [] => none

/-- A `byte` operand (R68). -/
def readByte : Token → Option Byte
  | .bare cs => (readNumber cs).bind fun n => if n < 2 ^ 8 then some (BitVec.ofNat 8 n) else none
  | .chr b => some b
  | .str _ => none
  | .comma => none

/-- A `word`, `type` or `value` operand (R68). -/
def readWord : Token → Option Word
  | .bare cs => (readNumber cs).bind fun n => if n < 2 ^ 32 then some (BitVec.ofNat 32 n) else none
  | .str [b0, b1, b2, b3] => some (be32 b0 b1 b2 b3)
  | .str _ => none
  | .chr _ => none
  | .comma => none

/-- Bytes separated by commas, at least one. -/
def readBytes : List Token → Option (List Byte)
  | [] => none
  | [t] => (readByte t).map ([·])
  | t :: .comma :: ts => (readByte t).bind fun b => (readBytes ts).map (b :: ·)
  | _ :: _ :: _ => none

/-- The payload bytes that may follow an operand: none, or a comma and bytes. -/
def readMoreBytes : List Token → Option (List Byte)
  | [] => some []
  | .comma :: ts => readBytes ts
  | _ :: _ => none

/-- The commands without operand. -/
def plainMnemonics : List (List Char × List Instr) :=
  [("NOP".toList, [.nop]), ("CRC_INIT".toList, [.crcInit]), ("CRC_READ".toList, [.crcRead]),
   ("CRC_GETRAW".toList, [.crcGetraw]), ("TYPE_FLAGS".toList, [.typeFlags]), ("TYPE_GET".toList, [.typeGet]),
   ("STAT_READ".toList, [.statRead]), ("STAT_CLEAR".toList, [.statClear]), ("CLR".toList, clr),
   ("CRC_BYTES".toList, [])]

/-- The commands with one word operand. -/
def wordMnemonics : List (List Char × (Word → Instr)) :=
  [("CRC_WORD".toList, .crcWord), ("CRC_CHECK".toList, .crcCheck), ("CRC_SETRAW".toList, .crcSetraw),
   ("CHUNK_BEGIN".toList, .chunkBegin), ("TYPE_LOAD".toList, .typeLoad), ("TYPE_EQ".toList, .typeEq)]

/-- A line's commands from its parts: a command of R68 or a pseudo-instruction of R69 expanded; an empty line has none. DESIGN
CHOICE (log entry 11): the type of CHUNK_CRC and CHUNK_VERIFY, which R69 writes as a string only, is any `type` operand of R68, so a
32-bit number stands there too; and the `c` of CHUNK_VERIFY, whose form R69 does not give, is any `value` operand of R68. -/
def assembleTokens : List Token → Option (List Instr)
  | [] => some []
  | [.bare m] => plainMnemonics.lookup m
  | [.bare m, t] =>
    if m = "CRC_BYTE".toList then (readByte t).map ([.crcByte ·])
    else if m = "CRC_BYTES".toList then (readByte t).map (crcBytes [·])
    else if m = "CRC_STR".toList then
      match t with
      | .str bs => some (crcBytes bs)
      | .bare _ => none
      | .chr _ => none
      | .comma => none
    else if m = "CHUNK_CRC".toList then (readWord t).map (chunkCrc · [])
    else (wordMnemonics.lookup m).bind fun f => (readWord t).map ([f ·])
  | .bare m :: t :: .comma :: ts =>
    if m = "CRC_BYTES".toList then (readBytes (t :: .comma :: ts)).map crcBytes
    else if m = "CHUNK_CRC".toList then (readWord t).bind fun w => (readBytes ts).map (chunkCrc w)
    else if m = "CHUNK_VERIFY".toList then
      match ts with
      | [] => none
      | u :: us => (readWord t).bind fun w => (readWord u).bind fun c => (readMoreBytes us).map (chunkVerify w c)
    else none
  | _ :: _ => none

/-- The transactions a line assembles to (R68, R69); none where the line is not in the assembler's language. -/
def assembleLine (line : List Char) : Option (List Command) :=
  ((lexLine .gap line).bind assembleTokens).map (·.map encode)

/-- An upper-case hexadecimal digit. -/
def hexDigit (d : BitVec 4) : Char :=
  if d.toNat < 10 then Char.ofNat ('0'.toNat + d.toNat) else Char.ofNat ('A'.toNat + (d.toNat - 10))

/-- Eight hexadecimal digits. -/
def hexWord (w : Word) : List Char := [28, 24, 20, 16, 12, 8, 4, 0].map fun k => hexDigit (w.extractLsb' k 4)

/-- The `cmd:arg` form of a listing (R70). -/
def listing (c : Command) : List Char := hexWord c.cmd ++ ':' :: hexWord c.arg

end Sys2Proof.Machine
end

