-- ==== Sys2Proof/Safety.lean ====
section
/-! DEFINITION. The terms claims are stated in: when a step is safe, the host's duty, the record a state stands for, and the
fed sequence of spec/20_memory.md R41. Nothing here is part of the machine. -/

namespace Sys2Proof.Machine

/-- A safe step: the machine goes on (60_exceptions.md R152). -/
def StepsOn (s : State) : Prop := ∃ t, step s = .next t

/-- `n` steps, stopping at the first fault or refusal. -/
def stepN : Nat → State → Host.Outcome State Fault Refusal
  | 0, s => .next s
  | n + 1, s =>
    match step s with
    | .next t => stepN n t
    | .fault f => .fault f
    | .refused r => .refused r

/-- The payload bound of 00_scope.md R8, which the CIU does not check: the host's duty. -/
def payloadInBound (p : List Byte) : Bool := p.length ≤ Config.lMax

/-- The host's duty of 70_reset_and_hazards.md R170, for the next two edges: what it presents and the CIU does not accept, it
still presents at the edge after. -/
def hostHolds (s : State) : Bool :=
  match s.inputs with
  | [] => true
  | [e] => !e.cmdValid || cmdReady e.rst s
  | e :: f :: _ => !e.cmdValid || cmdReady e.rst s || (f.cmdValid && f.cmd == e.cmd && f.arg == e.arg)

/-- The registers and responses of `s` are the result, from reset, of the program that `s` records as performed (42_control.md
R128, R131; 20_memory.md R52). -/
def Consistent (s : State) : Prop :=
  ∃ r, runProgram s.performed State.reset = .next r ∧ r.crcState = s.crcState ∧ r.typeReg = s.typeReg ∧
    r.status = s.status ∧ r.taken = responseList s

/-- What one command does to the fed sequence (20_memory.md R41), beside the remainder it started from. -/
def fedAfter (f : Word × List Byte) : Instr → Word × List Byte
  | .nop => f
  | .crcInit => (0xFFFFFFFF, [])
  | .crcByte b => (f.1, f.2 ++ [b])
  | .crcWord w => (f.1, f.2 ++ [byteOf w 0, byteOf w 1, byteOf w 2, byteOf w 3])
  | .crcRead => f
  | .crcCheck _ => f
  | .crcGetraw => f
  | .crcSetraw v => (v, [])
  | .chunkBegin t => (0xFFFFFFFF, [byteOf t 0, byteOf t 1, byteOf t 2, byteOf t 3])
  | .typeLoad _ => f
  | .typeFlags => f
  | .typeGet => f
  | .typeEq _ => f
  | .statRead => f
  | .statClear => f

/-- The fed sequence of a list of commands performed from reset, and the remainder its last initialisation left: all ones, or
what CRC_SETRAW restored (20_memory.md R41). An illegal word feeds nothing. -/
def fedFrom (f : Word × List Byte) : List Command → Word × List Byte
  | [] => f
  | c :: cs =>
    match decode c with
    | .ok i => fedFrom (fedAfter f i) cs
    | .error _ => fedFrom f cs

/-- `fedFrom`, starting at reset. -/
def fed (cs : List Command) : Word × List Byte := fedFrom (0xFFFFFFFF, []) cs

/-- The bytes a feeding command takes; none for a command that is not CRC_BYTE or CRC_WORD. -/
def feedBytes : Instr → Option (List Byte)
  | .nop => none
  | .crcInit => none
  | .crcByte b => some [b]
  | .crcWord w => some [byteOf w 0, byteOf w 1, byteOf w 2, byteOf w 3]
  | .crcRead => none
  | .crcCheck _ => none
  | .crcGetraw => none
  | .crcSetraw _ => none
  | .chunkBegin _ => none
  | .typeLoad _ => none
  | .typeFlags => none
  | .typeGet => none
  | .typeEq _ => none
  | .statRead => none
  | .statClear => none

/-- The commands `fs` are CRC_BYTE and CRC_WORD commands only, and feed the bytes `m` in order (41_crc.md R114, step 2). -/
inductive Feeds : List Instr → List Byte → Prop where
  | nil : Feeds [] []
  | cons {i : Instr} {p : List Byte} {fs : List Instr} {m : List Byte} :
      feedBytes i = some p → Feeds fs m → Feeds (i :: fs) (p ++ m)

/-- The remainder is that of the bytes fed since the last initialisation (41_crc.md R100), for the commands `s` records as
performed. -/
def RemainderOfFed (s : State) : Prop := s.crcState = crcUpdate (fed s.performed).1 (fed s.performed).2

/-- How long a transaction takes: edges before the host presents the command, edges the command is worked on (`CMD_LATENCY`
less 1), and edges the host leaves the response waiting. -/
structure Timing where
  idle : Nat
  busy : Nat
  hold : Nat
deriving DecidableEq, Repr

/-- The edges of one transaction (30_encoding.md R61; 70_reset_and_hazards.md R168 to R170). -/
def transactionEdges (c : Command) (d : Timing) : List Edge :=
  List.replicate d.idle idleEdge ++ [{ idleEdge with cmdValid := true, cmd := c.cmd, arg := c.arg }] ++
    List.replicate d.busy { idleEdge with busy := true } ++ [idleEdge] ++
    List.replicate d.hold idleEdge ++ [{ idleEdge with rspReady := true }]

/-- The edges of a program, one transaction after another. -/
def schedule : List (Command × Timing) → List Edge
  | [] => []
  | (c, d) :: rest => transactionEdges c d ++ schedule rest

end Sys2Proof.Machine
end

