-- ==== Sys2Proof/Certificates/Slice0/Obligations.lean ====
section
/-! DEFINITION. The statements for the provers. Each docstring names the rule of spec/ it formalises; OBLIGATIONS.json lists
them. `{ s with … }` on the right of an exec equation is the frame: every register, status bit and model field it does not
name is unchanged. The CIU has no memory (spec/20_memory.md R40), so no frame speaks of memory. -/

open Sys2Proof Sys2Proof.Machine

/-! ### Encoding -/

/-- R62 to R65, R68: decode and encode agree. Decoding an encoded command gives it back, for all fifteen and every operand; and
a command that decodes is its encoding, but for the bits of `arg` its class ignores. -/
def Obligations.DecodeAndEncodeAgree : Prop :=
  (∀ i : Instr, decode (encode i) = .ok i) ∧
    ∀ (c : Command) (i : Instr), decode c = .ok i →
      (encode i).cmd = c.cmd ∧ (encode i).arg = usedArg (operandClass i) c.arg

/-- R64: which command words are legal, that `arg` plays no part, and that every other word takes the illegal-command arm of
R129. -/
def Obligations.LegalCommandsAreFifteenWords : Prop :=
  ∀ c : Command,
    ((∃ i, decode c = .ok i) ↔
      c.cmd.extractLsb' 0 24 = 0#24 ∧
        c.cmd.extractLsb' 24 8 ∈
          ([0x00, 0x01, 0x02, 0x03, 0x04, 0x05, 0x06, 0x07, 0x08, 0x10, 0x11, 0x12, 0x13, 0x20, 0x21] : List (BitVec 8))) ∧
      (c.wellFormed = true ↔ ∃ i, decode c = .ok i) ∧
      ((¬ ∃ i, decode c = .ok i) → ∀ s, perform c s = illegalCommandArm s)

/-- R65, R63: each row's word decodes to its command, with the operand its class takes. -/
def Obligations.OpcodeMapRows : Prop :=
  ∀ arg : Word,
    decode ⟨0x00000000, arg⟩ = .ok .nop ∧ decode ⟨0x01000000, arg⟩ = .ok .crcInit ∧
    decode ⟨0x02000000, arg⟩ = .ok (.crcByte (arg.extractLsb' 0 8)) ∧ decode ⟨0x03000000, arg⟩ = .ok (.crcWord arg) ∧
    decode ⟨0x04000000, arg⟩ = .ok .crcRead ∧ decode ⟨0x05000000, arg⟩ = .ok (.crcCheck arg) ∧
    decode ⟨0x06000000, arg⟩ = .ok .crcGetraw ∧ decode ⟨0x07000000, arg⟩ = .ok (.crcSetraw arg) ∧
    decode ⟨0x08000000, arg⟩ = .ok (.chunkBegin arg) ∧ decode ⟨0x10000000, arg⟩ = .ok (.typeLoad arg) ∧
    decode ⟨0x11000000, arg⟩ = .ok .typeFlags ∧ decode ⟨0x12000000, arg⟩ = .ok .typeGet ∧
    decode ⟨0x13000000, arg⟩ = .ok (.typeEq arg) ∧ decode ⟨0x20000000, arg⟩ = .ok .statRead ∧
    decode ⟨0x21000000, arg⟩ = .ok .statClear

/-- R63: the operand each class takes, and that two commands with the same `cmd` and the same used bits of `arg` behave the same
from every state. -/
def Obligations.IgnoredArgBitsHaveNoEffect : Prop :=
  (∀ (cmd a a' : Word) (s : State),
    (∀ i, decode ⟨cmd, a⟩ = .ok i → usedArg (operandClass i) a = usedArg (operandClass i) a') →
      decode ⟨cmd, a⟩ = decode ⟨cmd, a'⟩ ∧ perform ⟨cmd, a⟩ s = perform ⟨cmd, a'⟩ s) ∧
    ∀ (a a' : Word),
      usedArg .none a = usedArg .none a' ∧
      (usedArg .byte a = usedArg .byte a' ↔ a.extractLsb' 0 8 = a'.extractLsb' 0 8) ∧
      usedArg .word a = a ∧ usedArg .type a = a ∧ usedArg .value a = a

/-- R10, R42, R43: `byte(w, i)` is `w[31−8i : 24−8i]` as a number, `be32` is the sum of its bytes at their places, and the two
undo each other. -/
def Obligations.BigEndianByteOrder : Prop :=
  (∀ (w : Word) (i : Fin 4), (byteOf w i).toNat = w.toNat / 2 ^ (24 - 8 * i.val) % 256) ∧
    (∀ b0 b1 b2 b3 : Byte,
      (be32 b0 b1 b2 b3).toNat = b0.toNat * 2 ^ 24 + b1.toNat * 2 ^ 16 + b2.toNat * 2 ^ 8 + b3.toNat ∧
        streamBytes (be32 b0 b1 b2 b3) = [b0, b1, b2, b3]) ∧
    ∀ w : Word, be32 (byteOf w 0) (byteOf w 1) (byteOf w 2) (byteOf w 3) = w

/-! ### The step, reset and the port -/

/-- R61, R128: at an edge where the command in flight completes, a step is exec of the decoded command. What the step adds: the
edge's sample is used, and the command enters the record. When the command completes, the samples and the record are the
model's (log entries 1 to 4). -/
def Obligations.StepRunsDecodedCommand : Prop :=
  ∀ (s : State) (c : Command) (i : Instr),
    s.port = .inFlight c → (nextEdge s).rst = false → (nextEdge s).busy = false → decode c = .ok i →
      step s = exec i { s with inputs := s.inputs.tail, performed := s.performed ++ [c] }

/-- The same of a state that withFetchWord prepares, whatever samples it lists (log entries 1, 3 and 4; the numbering of the two
words is log entry 10). -/
def Obligations.FetchWordRunsNext : Prop :=
  ∀ (s : State) (nbits w : Nat) (i : Instr), decodeTableWord nbits w = some i →
    step (s.withFetchWord nbits w) =
      exec i
        { s with
          port := .inFlight (commandOfBits nbits w), inputs := s.inputs.tail,
          performed := s.performed ++ [commandOfBits nbits w] }

/-- R129: the illegal-command arm, from every state and whatever `arg` is: `STATUS.CMD_ERR` and the response, nothing else; one
step of a program, after which the machine is ready; and R129's two example words. -/
def Obligations.IllegalCommandArmWritesOnlyCmdErr : Prop :=
  (∀ (c : Command) (s : State), (¬ ∃ i, decode c = .ok i) →
    perform c s =
        .next { s with status := { s.status with cmdErr := true }, port := .response ⟨.error .illegalCommand, 0⟩ } ∧
      ∃ t, transact c s = .next t ∧ t.performed.length = s.performed.length + 1 ∧ cmdReady false t = true) ∧
    ∀ arg, (¬ ∃ i, decode ⟨0x09000000, arg⟩ = .ok i) ∧ ¬ ∃ i, decode ⟨0x01000001, arg⟩ = .ok i

/-- R160: an edge with `rst` high puts every register to its reset value; while `rst` is high no command is accepted and no
response given; the first edge with `rst` low ends reset, and the machine is ready. That `cmd_ready` is still 0 at that first
edge, although its `rst` is low, is deduced from R160 and R170 (log entry 7); that the two outputs follow the level of `rst` in
the same cycle is log entry 8. -/
def Obligations.ResetEdgeSetsEveryRegister : Prop :=
  (∀ s : State, (nextEdge s).rst = true →
    ∃ t, step s = .next t ∧ t.crcState = 0xFFFFFFFF ∧ t.typeReg = 0x00000000 ∧ t.status = ⟨false, false, false⟩ ∧
      cmdReady false t = false ∧
      ((nextEdge t).rst = false → ∃ u, step t = .next u ∧ cmdReady false u = true ∧ u.crcState = 0xFFFFFFFF ∧
        u.typeReg = 0x00000000 ∧ u.status = ⟨false, false, false⟩)) ∧
    ∀ s : State, cmdReady true s = false ∧ rspValid true s = false

/-- R33: what reset leaves. -/
def Obligations.ResetStateValues : Prop :=
  State.reset.crcState = 0xFFFFFFFF ∧ State.reset.typeReg = 0x00000000 ∧
    State.reset.status = ⟨false, false, false⟩ ∧ rspOut false State.reset = none

/-- R160, R33, and R34, R164: whatever the registers and the port hold before the first reset, one edge with `rst` high and one
with `rst` low give the state after reset. A command presented at the second edge is not accepted there (log entry 7), the state
after that edge is the model's state after reset (log entry 14), and the emptied record is the model's choice (log entry 4). -/
def Obligations.AnyPowerUpStateResets : Prop :=
  ∀ (s : State) (e f : Edge) (es : List Edge), s.inputs = e :: f :: es → e.rst = true → f.rst = false →
    stepN 2 s = .next { State.reset with inputs := es }

/-- R162: a command in flight at reset, and a response not taken, leave no trace: two states that see the same edges give the
same state at an edge with `rst` high, and in it no response exists. The emptied record is the model's choice (log entry 4). -/
def Obligations.ResetErasesWhatWasInFlight : Prop :=
  ∀ s s' : State, s.inputs = s'.inputs → (nextEdge s).rst = true →
    step s = step s' ∧ ∃ t, step s = .next t ∧ waitingResponse t = none ∧ responseList t = []

/-- R170, R61: when `cmd_ready` is high; that a command is accepted at exactly the edges where `cmd_valid` and `cmd_ready` are
high, with the `cmd` and `arg` of that edge; and that a command in flight stays the one that was sampled. That the edge which ends
reset accepts nothing is log entry 7, that `cmd_ready` follows the level of `rst` in the same cycle log entry 8. -/
def Obligations.AcceptanceOfCommands : Prop :=
  (∀ (rst : Bool) (s : State), cmdReady rst s = true ↔
    rst = false ∧ s.port ≠ .inReset ∧ (∀ c, s.port ≠ .inFlight c) ∧ waitingResponse s = none) ∧
  (∀ s : State, cmdReady (nextEdge s).rst s = true → (nextEdge s).cmdValid = true →
    step s = .next { s with port := .inFlight ⟨(nextEdge s).cmd, (nextEdge s).arg⟩, inputs := s.inputs.tail }) ∧
  ∀ (s t : State) (c : Command), step s = .next t → t.port = .inFlight c →
    s.port = .inFlight c ∨
      (cmdReady (nextEdge s).rst s = true ∧ (nextEdge s).cmdValid = true ∧ c = ⟨(nextEdge s).cmd, (nextEdge s).arg⟩)

/-- R168: a completed command's response is driven. It is held, with no command accepted, over any edges with `rst` low at which
the host does not take it, whatever the edges after them are. After an edge with `rst` low at which the host takes it, there is
no response and the machine is ready (R170). The samples and the record of the response taken are the model's (log entries 3
and 4). -/
def Obligations.ResponseHeldUntilTaken : Prop :=
  (∀ (c : Command) (s t : State), perform c s = .next t → ∃ r, t.port = .response r ∧ rspOut false t = some r) ∧
  (∀ (s : State) (r : Response) (es rest : List Edge),
    s.port = .response r → s.inputs = es ++ rest → (∀ f ∈ es, f.rst = false ∧ f.rspReady = false) →
      ∃ t, stepN es.length s = .next t ∧ rspValid false t = true ∧ rspOut false t = some r ∧ cmdReady false t = false ∧
        t = { s with inputs := rest }) ∧
  ∀ (s : State) (r : Response), s.port = .response r → (nextEdge s).rst = false → (nextEdge s).rspReady = true →
    ∃ u, step s = .next u ∧ rspValid false u = false ∧ cmdReady false u = true ∧
      u = { s with port := .ready, inputs := s.inputs.tail, taken := s.taken ++ [r] }

/-- R169: however many edges the command in flight is worked on, it completes, and what it does is the same. That its writes land
at the completing edge is the model's reading (log entry 1), the busy mark of an edge its form of the open latency (log entry 2),
and the record its own (log entry 4). -/
def Obligations.EveryLatencyCompletes : Prop :=
  ∀ (s : State) (c : Command) (es : List Edge) (e : Edge) (rest : List Edge),
    s.port = .inFlight c → s.inputs = es ++ e :: rest → (∀ f ∈ es, f.rst = false ∧ f.busy = true) →
    e.rst = false → e.busy = false →
      stepN (es.length + 1) s = perform c { s with inputs := rest, performed := s.performed ++ [c] } ∧
        ∃ t, stepN (es.length + 1) s = .next t ∧ rspValid false t = true

/-- R168, R170: a host that takes the waiting response and keeps its presented command, as R170 obliges it to, has the command
accepted at the next edge. -/
def Obligations.PresentedCommandIsAccepted : Prop :=
  ∀ (s : State) (r : Response) (e f : Edge) (rest : List Edge),
    s.port = .response r → s.inputs = e :: f :: rest → e.rst = false → f.rst = false → e.rspReady = true →
    e.cmdValid = true → hostHolds s = true →
      ∃ t, stepN 2 s = .next t ∧ t.port = .inFlight ⟨e.cmd, e.arg⟩

/-! ### Invariants and whole-machine rules -/

/-- R52, R61, R128, R131: at every step, from every state of which it is true, the registers and the response list are the
result, from reset, of the program of the commands performed: each takes effect whole, in order, with exactly one response. The
record is the model's (log entry 4). -/
def Obligations.StepKeepsRunRecord : Prop :=
  ∀ s t : State, Consistent s → step s = .next t → Consistent t

/-- R100, R41: at every step `CRC_STATE` is the remainder of the bytes fed since the last initialisation, from all ones or from
the value CRC_SETRAW restored. The record the bytes are read from is the model's (log entry 4). -/
def Obligations.StepKeepsRemainderOfFedBytes : Prop :=
  ∀ s t : State, RemainderOfFed s → step s = .next t → RemainderOfFed t

/-- Both invariants hold of the state after reset (R33, R163), where the model's record is empty (log entry 4). -/
def Obligations.ResetMeetsBothInvariants : Prop :=
  Consistent State.reset ∧ RemainderOfFed State.reset

/-- R61, R128, R131, R169: the port's clocked machine refines the program's left fold. For every program and every timing of
every transaction, the edges of its transactions run to exactly the program's result. The edges, their busy marks and the record
are the model's (log entries 2 to 4). -/
def Obligations.ClockedRunIsProgramResult : Prop :=
  ∀ (p : List (Command × Timing)) (rest : List Edge) (s : State), s.port = .ready → s.inputs = schedule p ++ rest →
    stepN (schedule p).length s = runProgram (p.map Prod.fst) { s with inputs := rest }

/-- R152: every state has a next state, after every command the machine is ready again as soon as its response is taken, and
every state can reach readiness without reset. -/
def Obligations.NoErrorStopsTheMachine : Prop :=
  (∀ s : State, StepsOn s) ∧
    (∀ (c : Command) (s : State), ∃ t, transact c s = .next t ∧ cmdReady false t = true) ∧
    ∀ s : State, ∃ (es : List Edge) (t : State), (∀ e ∈ es, e.rst = false) ∧
      stepN es.length { s with inputs := es } = .next t ∧ cmdReady false t = true

/-- R136, R137, R138, R142: when each error is raised, what it records, and that a command raises at most one; the numbers of
the codes are R135's. -/
def Obligations.OneErrorAtMostPerCommand : Prop :=
  (rspCodeBits .ok = 0 ∧ rspCodeBits (.error .illegalCommand) = 1 ∧ rspCodeBits (.error .invalidChunkType) = 2 ∧
    rspCodeBits (.error .crcMismatch) = 3) ∧
  ∀ (c : Command) (s : State), ∃ t r, perform c s = .next t ∧ t.port = .response r ∧
    (r.code = .error .illegalCommand ↔
      c.cmd.extractLsb' 0 24 ≠ 0#24 ∨
        c.cmd.extractLsb' 24 8 ∉
          ([0x00, 0x01, 0x02, 0x03, 0x04, 0x05, 0x06, 0x07, 0x08, 0x10, 0x11, 0x12, 0x13, 0x20, 0x21] : List (BitVec 8))) ∧
    (r.code = .error .illegalCommand → t = { s with status := { s.status with cmdErr := true }, port := .response r } ∧
      r.data = 0) ∧
    (r.code = .error .invalidChunkType ↔
      ∃ w, (decode c = .ok (.typeLoad w) ∨ decode c = .ok (.chunkBegin w)) ∧ letters w = false) ∧
    (r.code = .error .invalidChunkType → t.status = { s.status with typeErr := true } ∧ t.typeReg = c.arg ∧
      r.data = tflags c.arg) ∧
    (r.code = .error .crcMismatch ↔ ∃ v, decode c = .ok (.crcCheck v) ∧ v ≠ finalize s.crcState) ∧
    (r.code = .error .crcMismatch →
      t = { s with status := { s.status with crcErr := true }, port := .response r } ∧ r.data = finalize s.crcState) ∧
    (r.code = .ok → decode c ≠ .ok .statClear → t.status = s.status)

/-- R24: over any step, a status bit is set only by its own error, and cleared only by STAT_CLEAR or reset. That the command is
still in flight at the step that writes is log entry 1. -/
def Obligations.StatusBitsChangeOnlyByTheirCause : Prop :=
  ∀ s t : State, step s = .next t →
    (s.status.crcErr = false → t.status.crcErr = true →
      ∃ c v, s.port = .inFlight c ∧ decode c = .ok (.crcCheck v) ∧ v ≠ s.crcState ^^^ 0xFFFFFFFF) ∧
    (s.status.typeErr = false → t.status.typeErr = true →
      ∃ c w, s.port = .inFlight c ∧ (decode c = .ok (.typeLoad w) ∨ decode c = .ok (.chunkBegin w)) ∧ letters w = false) ∧
    (s.status.cmdErr = false → t.status.cmdErr = true → ∃ c e, s.port = .inFlight c ∧ decode c = .error e) ∧
    ((s.status.crcErr = true ∧ t.status.crcErr = false) ∨ (s.status.typeErr = true ∧ t.status.typeErr = false) ∨
        (s.status.cmdErr = true ∧ t.status.cmdErr = false) →
      (nextEdge s).rst = true ∨ ∃ c, s.port = .inFlight c ∧ decode c = .ok .statClear)

/-- R20: over any step, only the commands R20 lists, and reset, write `CRC_STATE` and `TYPE_REG`. That the command is still in
flight at the step that writes is log entry 1. -/
def Obligations.RegistersWrittenOnlyByTheirCommands : Prop :=
  ∀ s t : State, step s = .next t →
    (t.crcState ≠ s.crcState → (nextEdge s).rst = true ∨ ∃ c i, s.port = .inFlight c ∧ decode c = .ok i ∧
      (i = .crcInit ∨ (∃ b, i = .crcByte b) ∨ (∃ w, i = .crcWord w) ∨ (∃ v, i = .crcSetraw v) ∨ ∃ w, i = .chunkBegin w)) ∧
    (t.typeReg ≠ s.typeReg → (nextEdge s).rst = true ∨ ∃ c i, s.port = .inFlight c ∧ decode c = .ok i ∧
      ((∃ w, i = .typeLoad w) ∨ ∃ w, i = .chunkBegin w))

/-- R25: every command, legal or not, behaves the same whatever `STATUS` holds. For one command and the rest of the state there
is one next state, one response code and, for each status bit, one thing done to it (written with one value, or kept), the same
for every `STATUS`. The data is the same too, but for STAT_READ and STAT_CLEAR, which answer `STATUS` itself by R126 and R127:
that R25 excepts these two is the model's reading (log entry 15). -/
def Obligations.StatusNeverChangesBehaviour : Prop :=
  ∀ (c : Command) (s : State), ∃ (t : State) (code : RspCode) (d0 : Word) (crc type cmd : Option Bool),
    ∀ st : Status, ∃ d : Word,
      perform c { s with status := st } =
        .next
          { t with
            status := ⟨crc.getD st.crcErr, type.getD st.typeErr, cmd.getD st.cmdErr⟩
            port := .response ⟨code, d⟩ } ∧
      (decode c ≠ .ok .statRead → decode c ≠ .ok .statClear → d = d0) ∧
      (decode c = .ok .statRead ∨ decode c = .ok .statClear → d = statusWord st)

/-! ### Control commands -/

/-- R125. -/
def Obligations.NopDoesNothing : Prop :=
  (∀ arg, decode ⟨0x00000000, arg⟩ = .ok .nop) ∧
    (∀ s : State, exec .nop s = .next { s with port := .response ⟨.ok, 0x00000000⟩ }) ∧
    ∀ arg, ¬ ∃ i, decode ⟨0x00000001, arg⟩ = .ok i

/-- R126: the status word's bits, its reserved bits zero, its value after reset and R126's example. -/
def Obligations.StatReadGivesStatus : Prop :=
  (∀ arg, decode ⟨0x20000000, arg⟩ = .ok .statRead) ∧
    (∀ s : State, ∃ w : Word, exec .statRead s = .next { s with port := .response ⟨.ok, w⟩ } ∧
      w.getLsbD 0 = s.status.crcErr ∧ w.getLsbD 1 = s.status.typeErr ∧ w.getLsbD 2 = s.status.cmdErr ∧
      (∀ k, 3 ≤ k → w.getLsbD k = false) ∧ (s.status = ⟨true, false, false⟩ → w = 0x00000001)) ∧
    exec .statRead State.reset = .next { State.reset with port := .response ⟨.ok, 0⟩ }

/-- R127: the status word before the clear, all three bits cleared and nothing else, a second STAT_CLEAR's answer, and R127's
example. -/
def Obligations.StatClearReadsAndClears : Prop :=
  (∀ arg, decode ⟨0x21000000, arg⟩ = .ok .statClear) ∧
    ∀ s : State, ∃ (w : Word) (t : State), exec .statClear s = .next t ∧
      t = { s with status := ⟨false, false, false⟩, port := .response ⟨.ok, w⟩ } ∧
      w.getLsbD 0 = s.status.crcErr ∧ w.getLsbD 1 = s.status.typeErr ∧ w.getLsbD 2 = s.status.cmdErr ∧
      (∀ k, 3 ≤ k → w.getLsbD k = false) ∧
      exec .statClear t = .next { t with port := .response ⟨.ok, 0⟩ } ∧
      (s.status = ⟨true, false, true⟩ → w = 0x00000005)

/-! ### CRC generator commands -/

/-- R106. -/
def Obligations.CrcInitStartsANewCrc : Prop :=
  (∀ arg, decode ⟨0x01000000, arg⟩ = .ok .crcInit) ∧
    (∀ s : State, exec .crcInit s = .next { s with crcState := 0xFFFFFFFF, port := .response ⟨.ok, 0x00000000⟩ }) ∧
    (∀ s t : State, exec .crcInit s = .next t → t.crcState = State.reset.crcState ∧
      exec .crcRead t = .next { t with port := .response ⟨.ok, 0x00000000⟩ })

/-- R107, with its corner cases and its example. -/
def Obligations.CrcByteFeedsOneByte : Prop :=
  (∀ arg : Word, decode ⟨0x02000000, arg⟩ = .ok (.crcByte (arg.extractLsb' 0 8))) ∧
    (∀ (b : Byte) (s : State),
      exec (.crcByte b) s = .next { s with crcState := crcStep8 s.crcState b, port := .response ⟨.ok, 0x00000000⟩ }) ∧
    (∀ s : State, s.crcState = 0xFFFFFFFF →
      exec (.crcByte 0x00) s = .next { s with crcState := 0x2DFD1072, port := .response ⟨.ok, 0⟩ } ∧
      exec (.crcByte 0x49) s = .next { s with crcState := 0x22FDE946, port := .response ⟨.ok, 0⟩ }) ∧
    decode ⟨0x02000000, 0x12345668⟩ = decode ⟨0x02000000, 0x00000068⟩

/-- R108, with its corner cases and its example. -/
def Obligations.CrcWordFeedsFourBytes : Prop :=
  (∀ arg : Word, decode ⟨0x03000000, arg⟩ = .ok (.crcWord arg)) ∧
    (∀ (w : Word) (s : State),
      exec (.crcWord w) s = .next
        { s with
          crcState := crcStep8 (crcStep8 (crcStep8 (crcStep8 s.crcState (w.extractLsb' 24 8)) (w.extractLsb' 16 8))
            (w.extractLsb' 8 8)) (w.extractLsb' 0 8)
          port := .response ⟨.ok, 0x00000000⟩ }) ∧
    (∀ (w : Word) (s t1 t2 t3 : State), exec (.crcByte (w.extractLsb' 24 8)) s = .next t1 →
      exec (.crcByte (w.extractLsb' 16 8)) t1 = .next t2 → exec (.crcByte (w.extractLsb' 8 8)) t2 = .next t3 →
        exec (.crcWord w) s = exec (.crcByte (w.extractLsb' 0 8)) t3) ∧
    ∀ s : State, s.crcState = 0xFFFFFFFF →
      exec (.crcWord 0xFFFFFFFF) s = .next { s with crcState := 0x00000000, port := .response ⟨.ok, 0⟩ } ∧
      exec (.crcWord 0x00000000) s = .next { s with crcState := 0xDEBB20E3, port := .response ⟨.ok, 0⟩ } ∧
      exec (.crcWord 0x49454E44) s = .next { s with crcState := 0x51BD9F7D, port := .response ⟨.ok, 0⟩ }

/-- R109, with its corner cases and its example. -/
def Obligations.CrcReadGivesFinalizedCrc : Prop :=
  (∀ arg, decode ⟨0x04000000, arg⟩ = .ok .crcRead) ∧
    (∀ s : State, exec .crcRead s = .next { s with port := .response ⟨.ok, s.crcState ^^^ 0xFFFFFFFF⟩ }) ∧
    (∀ s t : State, exec .crcRead s = .next t → exec .crcRead t = .next t) ∧
    (∀ s t : State, exec .crcInit s = .next t → exec .crcRead t = .next { t with port := .response ⟨.ok, 0x00000000⟩ }) ∧
    exec .crcRead State.reset = .next { State.reset with port := .response ⟨.ok, 0x00000000⟩ } ∧
    ∀ s t : State, exec (.chunkBegin 0x49454E44) s = .next t →
      exec .crcRead t = .next { t with port := .response ⟨.ok, 0xAE426082⟩ }

/-- R110, with its corner cases and its example. -/
def Obligations.CrcCheckComparesAllBits : Prop :=
  (∀ arg : Word, decode ⟨0x05000000, arg⟩ = .ok (.crcCheck arg)) ∧
    (∀ (v : Word) (s : State), exec (.crcCheck v) s = .next
      (if v = s.crcState ^^^ 0xFFFFFFFF then { s with port := .response ⟨.ok, s.crcState ^^^ 0xFFFFFFFF⟩ }
       else { s with
          status := { s.status with crcErr := true }
          port := .response ⟨.error .crcMismatch, s.crcState ^^^ 0xFFFFFFFF⟩ })) ∧
    (∀ s t : State, exec .crcInit s = .next t → exec (.crcCheck 0) t = .next { t with port := .response ⟨.ok, 0⟩ }) ∧
    ∀ s t : State, exec (.chunkBegin 0x49454E44) s = .next t →
      exec (.crcCheck 0xAE426082) t = .next { t with port := .response ⟨.ok, 0xAE426082⟩ } ∧
      exec (.crcCheck 0xAE426083) t = .next
        { t with status := { t.status with crcErr := true }, port := .response ⟨.error .crcMismatch, 0xAE426082⟩ }

/-- R111, with its corner cases and its example. -/
def Obligations.CrcGetrawGivesRemainder : Prop :=
  (∀ arg, decode ⟨0x06000000, arg⟩ = .ok .crcGetraw) ∧
    (∀ s : State, exec .crcGetraw s = .next { s with port := .response ⟨.ok, s.crcState⟩ }) ∧
    (∀ s t u r q, exec .crcGetraw s = .next t → exec .crcRead s = .next u → t.port = .response r → u.port = .response q →
      r.data ^^^ q.data = 0xFFFFFFFF) ∧
    exec .crcGetraw State.reset = .next { State.reset with port := .response ⟨.ok, 0xFFFFFFFF⟩ } ∧
    ∀ s t : State, exec (.chunkBegin 0x49454E44) s = .next t →
      exec .crcGetraw t = .next { t with port := .response ⟨.ok, 0x51BD9F7D⟩ }

/-- R112, with its corner cases and its example (the five bytes of "hello", then CRC_READ). -/
def Obligations.CrcSetrawRestoresRemainder : Prop :=
  (∀ arg : Word, decode ⟨0x07000000, arg⟩ = .ok (.crcSetraw arg)) ∧
    (∀ (v : Word) (s : State),
      exec (.crcSetraw v) s = .next { s with crcState := v, port := .response ⟨.ok, 0x00000000⟩ }) ∧
    (∀ s : State, exec (.crcSetraw 0xFFFFFFFF) s = exec .crcInit s) ∧
    (∀ (s t u : State) (r : Response), exec .crcGetraw s = .next t → t.port = .response r →
      ∃ q, exec (.crcSetraw r.data) u = .next q ∧ q.crcState = s.crcState ∧ q.typeReg = u.typeReg) ∧
    ∀ s : State, ∃ t,
      runProgram (([Instr.crcSetraw 0x1015D60B] ++ crcBytes [0x68, 0x65, 0x6C, 0x6C, 0x6F] ++ [Instr.crcRead]).map encode) s = .next t ∧
      t.taken.getLast? = some ⟨.ok, 0x2B0D0AFA⟩

/-- R113, with its corner cases and its example: both registers are written whether or not the type is four letters. The clause
the spec marks as its own derivation is a statement of its own below. -/
def Obligations.ChunkBeginLoadsTypeAndStartsCrc : Prop :=
  (∀ arg : Word, decode ⟨0x08000000, arg⟩ = .ok (.chunkBegin arg)) ∧
    (∀ (t : Word) (s : State), exec (.chunkBegin t) s = .next
      { s with
        typeReg := t
        crcState := crcStep8 (crcStep8 (crcStep8 (crcStep8 0xFFFFFFFF (t.extractLsb' 24 8)) (t.extractLsb' 16 8))
          (t.extractLsb' 8 8)) (t.extractLsb' 0 8)
        status := if letters t then s.status else { s.status with typeErr := true }
        port := .response ⟨if letters t then .ok else .error .invalidChunkType, tflags t⟩ }) ∧
    ∀ s : State, exec (.chunkBegin 0x74655374) s = .next
      { s with crcState := 0xB204A551, typeReg := 0x74655374, port := .response ⟨.ok, 0x00000F39⟩ }

/-- The clause of R113 that the spec derives from R106, R108 and R85: the state after CHUNK_BEGIN is that after TYPE_LOAD,
CRC_INIT and CRC_WORD of the same word. -/
def Obligations.ChunkBeginIsThreeCommands : Prop :=
  ∀ (t : Word) (s a u v w : State), exec (.chunkBegin t) s = .next a → exec (.typeLoad t) s = .next u →
    exec .crcInit u = .next v → exec (.crcWord t) v = .next w →
      a.crcState = w.crcState ∧ a.typeReg = w.typeReg ∧ a.status = w.status

/-! ### Chunk-type commands -/

/-- R85, with its corner cases and its example: the register is written on an error too, a set reserved bit is no error, and
loading a type twice leaves the same state. -/
def Obligations.TypeLoadWritesAndChecksType : Prop :=
  (∀ arg : Word, decode ⟨0x10000000, arg⟩ = .ok (.typeLoad arg)) ∧
    (∀ (t : Word) (s : State), exec (.typeLoad t) s = .next
      { s with
        typeReg := t
        status := if letters t then s.status else { s.status with typeErr := true }
        port := .response ⟨if letters t then .ok else .error .invalidChunkType, tflags t⟩ }) ∧
    (∀ (t : Word) (s u : State), exec (.typeLoad t) s = .next u → exec (.typeLoad t) u = .next u ∧
      exec .typeFlags u = .next { u with port := .response ⟨.ok, tflags t⟩ } ∧
      exec .typeGet u = .next { u with port := .response ⟨.ok, t⟩ }) ∧
    (∀ (t : Word), letters t = true → t.getLsbD 13 = true → ∀ s : State, ∃ (d : Word) (u : State),
      exec (.typeLoad t) s = .next u ∧ u.port = .response ⟨.ok, d⟩ ∧ d.getLsbD 3 = false ∧ d.getLsbD 5 = false) ∧
    ∀ s : State, exec (.typeLoad 0x52755374) s = .next
      { s with typeReg := 0x52755374, port := .response ⟨.ok, 0x00000F3B⟩ }

/-- R86, with its corner cases and its example: after a TYPE_LOAD that failed, LETTERS is 0 and the LOK bits say which bytes
failed. -/
def Obligations.TypeFlagsGivesFlagWord : Prop :=
  (∀ arg, decode ⟨0x11000000, arg⟩ = .ok .typeFlags) ∧
    (∀ s : State, exec .typeFlags s = .next { s with port := .response ⟨.ok, tflags s.typeReg⟩ }) ∧
    exec .typeFlags State.reset = .next { State.reset with port := .response ⟨.ok, 0x0000000E⟩ } ∧
    (∀ (t : Word) (s u : State), letters t = false → exec (.typeLoad t) s = .next u → ∃ d : Word,
      exec .typeFlags u = .next { u with port := .response ⟨.ok, d⟩ } ∧ d.getLsbD 0 = false ∧
      d.getLsbD 8 = letterOk (t.extractLsb' 24 8) ∧ d.getLsbD 9 = letterOk (t.extractLsb' 16 8) ∧
      d.getLsbD 10 = letterOk (t.extractLsb' 8 8) ∧ d.getLsbD 11 = letterOk (t.extractLsb' 0 8)) ∧
    ∀ s u : State, exec (.typeLoad 0x49484452) s = .next u →
      exec .typeFlags u = .next { u with port := .response ⟨.ok, 0x00000F2F⟩ }

/-- R87, with its corner cases and its example. -/
def Obligations.TypeGetGivesTypeBytes : Prop :=
  (∀ arg, decode ⟨0x12000000, arg⟩ = .ok .typeGet) ∧
    (∀ s : State, exec .typeGet s = .next { s with port := .response ⟨.ok, s.typeReg⟩ }) ∧
    (∀ (t : Word) (s u : State), exec (.typeLoad t) s = .next u →
      exec .typeGet u = .next { u with port := .response ⟨.ok, t⟩ }) ∧
    exec .typeGet State.reset = .next { State.reset with port := .response ⟨.ok, 0x00000000⟩ } ∧
    ∀ w : Word, byteOf w 0 = w.extractLsb' 24 8

/-- R88 and R84, with the corner cases and the example of R88: all 32 bits, no check for letters, no case folding. -/
def Obligations.TypeEqComparesAllBits : Prop :=
  (∀ arg : Word, decode ⟨0x13000000, arg⟩ = .ok (.typeEq arg)) ∧
    (∀ (t : Word) (s : State), exec (.typeEq t) s = .next
      { s with port := .response ⟨.ok, if s.typeReg = t then 0x00000001 else 0x00000000⟩ }) ∧
    exec (.typeEq 0) State.reset = .next { State.reset with port := .response ⟨.ok, 0x00000001⟩ } ∧
    ∀ s u : State, exec (.typeLoad 0x52755354) s = .next u →
      exec (.typeEq 0x72757374) u = .next { u with port := .response ⟨.ok, 0x00000000⟩ } ∧
      exec (.typeEq 0x52755354) u = .next { u with port := .response ⟨.ok, 0x00000001⟩ }

/-- R75 to R81: the letter ranges as numbers, and the type properties from the four bytes, in both forms the rules give. -/
def Obligations.TypePropertiesFromBytes : Prop :=
  (∀ b : Byte, letterOk b = true ↔ (0x41 ≤ b.toNat ∧ b.toNat ≤ 0x5A) ∨ (0x61 ≤ b.toNat ∧ b.toNat ≤ 0x7A)) ∧
    ∀ t : Word,
      letters t = (letterOk (t.extractLsb' 24 8) && letterOk (t.extractLsb' 16 8) && letterOk (t.extractLsb' 8 8) &&
        letterOk (t.extractLsb' 0 8)) ∧
      (critical t = true ↔ (t.extractLsb' 24 8).getLsbD 5 = false) ∧ (critical t = true ↔ t &&& 0x20000000 = 0) ∧
      (isPublic t = true ↔ (t.extractLsb' 16 8).getLsbD 5 = false) ∧ (isPublic t = true ↔ t &&& 0x00200000 = 0) ∧
      (reservedOk t = true ↔ (t.extractLsb' 8 8).getLsbD 5 = false) ∧ (reservedOk t = true ↔ t &&& 0x00002000 = 0) ∧
      (safeToCopy t = true ↔ (t.extractLsb' 0 8).getLsbD 5 = true) ∧ (safeToCopy t = true ↔ t &&& 0x00000020 ≠ 0) ∧
      (valid t = true ↔ letters t = true ∧ reservedOk t = true)

/-- R82: every bit of the flag word. -/
def Obligations.FlagWordBits : Prop :=
  ∀ t : Word,
    (tflags t).getLsbD 0 = letters t ∧ (tflags t).getLsbD 1 = critical t ∧ (tflags t).getLsbD 2 = isPublic t ∧
    (tflags t).getLsbD 3 = reservedOk t ∧ (tflags t).getLsbD 4 = safeToCopy t ∧ (tflags t).getLsbD 5 = valid t ∧
    (tflags t).getLsbD 6 = false ∧ (tflags t).getLsbD 7 = false ∧
    (tflags t).getLsbD 8 = letterOk (byteOf t 0) ∧ (tflags t).getLsbD 9 = letterOk (byteOf t 1) ∧
    (tflags t).getLsbD 10 = letterOk (byteOf t 2) ∧ (tflags t).getLsbD 11 = letterOk (byteOf t 3) ∧
    ∀ k, 12 ≤ k → (tflags t).getLsbD k = false

/-! ### CRC functions -/

/-- R101, R102: `CrcStep8` is eight turns of the shift loop on the remainder XOR the byte, and `Finalize` is XOR with all ones. -/
def Obligations.CrcStep8IsTheLoop : Prop :=
  (∀ (c : Word) (b : Byte), crcStep8 c b =
    (fun x : Word => if x.getLsbD 0 = true then (x >>> 1) ^^^ 0xEDB88320 else x >>> 1)^[8] (c ^^^ b.setWidth 32)) ∧
    ∀ c : Word, finalize c = c ^^^ 0xFFFFFFFF

/-- R103: `CrcUpdate` of a concatenation, and the CRC of the empty sequence, as the spec derives them. -/
def Obligations.CrcUpdateOfConcatenation : Prop :=
  (∀ (c : Word) (a b : List Byte), crcUpdate c (a ++ b) = crcUpdate (crcUpdate c a) b) ∧ crc32 [] = 0x00000000

/-- R46: any two ways of feeding the same bytes, by CRC_BYTE and CRC_WORD in any mix, run to the same remainder, the one
`CrcUpdate` gives, and touch no other register. -/
def Obligations.FeedSplitDoesNotMatter : Prop :=
  ∀ (s : State) (fs gs : List Instr) (m : List Byte), Feeds fs m → Feeds gs m →
    ∃ r q, runProgram (fs.map encode) s = .next r ∧ runProgram (gs.map encode) s = .next q ∧
      r.crcState = crcUpdate s.crcState m ∧ q.crcState = crcUpdate s.crcState m ∧
      r.typeReg = s.typeReg ∧ q.typeReg = s.typeReg ∧ r.status = s.status ∧ q.status = s.status

/-- R104, form 1: the table form gives `CrcStep8`, for every remainder and byte. -/
def Obligations.TableFormAgrees : Prop :=
  ∀ (c : Word) (b : Byte), crcStep8ByTable c b = crcStep8 c b

/-- R104, form 2: the normal, most-significant-bit-first form gives `Crc32`, for every byte sequence. -/
def Obligations.NormalFormAgrees : Prop :=
  ∀ m : List Byte, crc32Normal m = crc32 m

/-- R105: byte sequences that differ in exactly one bit have different CRCs. -/
def Obligations.SingleBitChangesCrc : Prop :=
  ∀ (a b : List Byte) (x : Byte) (k : Nat), k < 8 →
    crc32 (a ++ x :: b) ≠ crc32 (a ++ (x ^^^ (1#8 <<< k)) :: b)

/-- R114: CHUNK_BEGIN, then the payload by any mix of feeding commands, then CRC_READ or CRC_CHECK, from any state: the response
is the CRC of the type bytes and the payload, or says whether the stored one equals it. -/
def Obligations.ChunkCrcProcedure : Prop :=
  ∀ (s : State) (t : Word) (p : List Byte) (fs : List Instr), Feeds fs p →
    (∃ r, runProgram ((Instr.chunkBegin t :: fs ++ [Instr.crcRead]).map encode) s = .next r ∧
      r.taken.getLast? = some ⟨.ok, crc32 (streamBytes t ++ p)⟩) ∧
    ∀ c : Word, ∃ r, runProgram ((Instr.chunkBegin t :: fs ++ [Instr.crcCheck c]).map encode) s = .next r ∧
      r.taken.getLast? =
        some ⟨if c = crc32 (streamBytes t ++ p) then .ok else .error .crcMismatch, crc32 (streamBytes t ++ p)⟩

/-- R105 in the CIU, R114: a chunk whose type and payload differ in one bit from those its CRC was computed over is caught by
CRC_CHECK, in the type and in the payload (90_conflicts.md C2). -/
def Obligations.OneFlippedBitIsCaught : Prop :=
  ∀ (s : State) (t t' : Word) (p p' : List Byte) (fs : List Instr) (a b : List Byte) (x : Byte) (k : Nat), k < 8 →
    streamBytes t ++ p = a ++ x :: b → streamBytes t' ++ p' = a ++ (x ^^^ (1#8 <<< k)) :: b → Feeds fs p' →
      ∃ r, runProgram ((Instr.chunkBegin t' :: fs ++ [Instr.crcCheck (crc32 (streamBytes t ++ p))]).map encode) s = .next r ∧
        r.status.crcErr = true ∧
        r.taken.getLast? = some ⟨.error .crcMismatch, crc32 (streamBytes t' ++ p')⟩

/-- R69: the expansion of CRC_BYTES feeds exactly its bytes: the words first, one for every four bytes from the front, then one
byte command for each that is left. CHUNK_CRC and CHUNK_VERIFY put CHUNK_BEGIN before it and the reading command after. -/
def Obligations.PseudoExpansionsFeedTheirBytes : Prop :=
  (∀ bs : List Byte, Feeds (crcBytes bs) bs ∧ (crcBytes bs).length = bs.length / 4 + bs.length % 4) ∧
    (∀ (b0 b1 b2 b3 : Byte) (bs : List Byte),
      crcBytes (b0 :: b1 :: b2 :: b3 :: bs) = .crcWord (be32 b0 b1 b2 b3) :: crcBytes bs) ∧
    (∀ bs : List Byte, bs.length < 4 → crcBytes bs = bs.map .crcByte) ∧
    ∀ (t c : Word) (bs : List Byte),
      chunkCrc t bs = [.chunkBegin t] ++ crcBytes bs ++ [.crcRead] ∧
      chunkVerify t c bs = [.chunkBegin t] ++ crcBytes bs ++ [.crcCheck c] ∧ clr = [.statClear]

/-! ### Saving, observing, repeating -/

/-- R149: what CRC_GETRAW and TYPE_GET answer in one state, CRC_SETRAW and TYPE_LOAD put back from any other. -/
def Obligations.SaveAndRestore : Prop :=
  ∀ s u : State, ∃ (t1 t2 u1 u2 : State) (v w : Word),
    exec .crcGetraw s = .next t1 ∧ t1.port = .response ⟨.ok, v⟩ ∧ exec .typeGet s = .next t2 ∧
      t2.port = .response ⟨.ok, w⟩ ∧ exec (.crcSetraw v) u = .next u1 ∧ exec (.typeLoad w) u1 = .next u2 ∧
      u2.crcState = s.crcState ∧ u2.typeReg = s.typeReg

/-- R150: two states whose answers to CRC_GETRAW, TYPE_GET and STAT_READ agree have the same three registers. -/
def Obligations.WholeStateIsObservable : Prop :=
  ∀ s u : State,
    (∀ i ∈ ([.crcGetraw, .typeGet, .statRead] : List Instr), ∃ t v, exec i s = .next t ∧ exec i u = .next v ∧ t.port = v.port) →
      s.crcState = u.crcState ∧ s.typeReg = u.typeReg ∧ s.status = u.status

/-- R49: a command that R49's table calls idempotent, performed twice, legal or not, leaves what performing it once leaves. -/
def Obligations.IdempotentCommandsRepeat : Prop :=
  ∀ (c : Command) (s : State), (∀ b, decode c ≠ .ok (.crcByte b)) → (∀ w, decode c ≠ .ok (.crcWord w)) →
    decode c ≠ .ok .statClear → ∃ t, perform c s = .next t ∧ perform c t = .next t

/-- R161: TYPE_LOAD 0, CRC_INIT and STAT_CLEAR put all three registers to their reset values, from any state. -/
def Obligations.CommandsReturnToReset : Prop :=
  ∀ s : State, ∃ r, runProgram ([.typeLoad 0, .crcInit, .statClear].map encode) s = .next r ∧
    r.crcState = State.reset.crcState ∧ r.typeReg = State.reset.typeReg ∧ r.status = State.reset.status
end

