-- ==== Sys2Proof/Laws/State.lean ====
section
/-! SUPPORT. What each update of the state leaves in each field. -/

namespace Sys2Proof.Machine

@[simp] theorem writeCrc_crcState (v : Word) (s : State) : (writeCrc v s).crcState = v := rfl
@[simp] theorem writeCrc_typeReg (v : Word) (s : State) : (writeCrc v s).typeReg = s.typeReg := rfl
@[simp] theorem writeCrc_status (v : Word) (s : State) : (writeCrc v s).status = s.status := rfl
@[simp] theorem writeCrc_port (v : Word) (s : State) : (writeCrc v s).port = s.port := rfl
@[simp] theorem writeCrc_inputs (v : Word) (s : State) : (writeCrc v s).inputs = s.inputs := rfl
@[simp] theorem writeCrc_performed (v : Word) (s : State) : (writeCrc v s).performed = s.performed := rfl
@[simp] theorem writeCrc_taken (v : Word) (s : State) : (writeCrc v s).taken = s.taken := rfl

@[simp] theorem writeType_crcState (v : Word) (s : State) : (writeType v s).crcState = s.crcState := rfl
@[simp] theorem writeType_typeReg (v : Word) (s : State) : (writeType v s).typeReg = v := rfl
@[simp] theorem writeType_status (v : Word) (s : State) : (writeType v s).status = s.status := rfl
@[simp] theorem writeType_port (v : Word) (s : State) : (writeType v s).port = s.port := rfl
@[simp] theorem writeType_inputs (v : Word) (s : State) : (writeType v s).inputs = s.inputs := rfl
@[simp] theorem writeType_performed (v : Word) (s : State) : (writeType v s).performed = s.performed := rfl
@[simp] theorem writeType_taken (v : Word) (s : State) : (writeType v s).taken = s.taken := rfl

@[simp] theorem writeStatus_crcState (st : Status) (s : State) : (writeStatus st s).crcState = s.crcState := rfl
@[simp] theorem writeStatus_typeReg (st : Status) (s : State) : (writeStatus st s).typeReg = s.typeReg := rfl
@[simp] theorem writeStatus_status (st : Status) (s : State) : (writeStatus st s).status = st := rfl
@[simp] theorem writeStatus_port (st : Status) (s : State) : (writeStatus st s).port = s.port := rfl
@[simp] theorem writeStatus_inputs (st : Status) (s : State) : (writeStatus st s).inputs = s.inputs := rfl
@[simp] theorem writeStatus_performed (st : Status) (s : State) : (writeStatus st s).performed = s.performed := rfl
@[simp] theorem writeStatus_taken (st : Status) (s : State) : (writeStatus st s).taken = s.taken := rfl

@[simp] theorem respond_crcState (c : RspCode) (d : Word) (s : State) : (respond c d s).crcState = s.crcState := rfl
@[simp] theorem respond_typeReg (c : RspCode) (d : Word) (s : State) : (respond c d s).typeReg = s.typeReg := rfl
@[simp] theorem respond_status (c : RspCode) (d : Word) (s : State) : (respond c d s).status = s.status := rfl
@[simp] theorem respond_port (c : RspCode) (d : Word) (s : State) : (respond c d s).port = .response ⟨c, d⟩ := rfl
@[simp] theorem respond_inputs (c : RspCode) (d : Word) (s : State) : (respond c d s).inputs = s.inputs := rfl
@[simp] theorem respond_performed (c : RspCode) (d : Word) (s : State) : (respond c d s).performed = s.performed := rfl
@[simp] theorem respond_taken (c : RspCode) (d : Word) (s : State) : (respond c d s).taken = s.taken := rfl

@[simp] theorem raise_crcState (e : ErrorKind) (d : Word) (s : State) : (raise e d s).crcState = s.crcState := rfl
@[simp] theorem raise_typeReg (e : ErrorKind) (d : Word) (s : State) : (raise e d s).typeReg = s.typeReg := rfl
@[simp] theorem raise_status (e : ErrorKind) (d : Word) (s : State) : (raise e d s).status = setSticky e s.status := rfl
@[simp] theorem raise_port (e : ErrorKind) (d : Word) (s : State) : (raise e d s).port = .response ⟨.error e, d⟩ := rfl
@[simp] theorem raise_inputs (e : ErrorKind) (d : Word) (s : State) : (raise e d s).inputs = s.inputs := rfl
@[simp] theorem raise_performed (e : ErrorKind) (d : Word) (s : State) : (raise e d s).performed = s.performed := rfl
@[simp] theorem raise_taken (e : ErrorKind) (d : Word) (s : State) : (raise e d s).taken = s.taken := rfl

@[simp] theorem record_crcState (c : Command) (s : State) : (record c s).crcState = s.crcState := rfl
@[simp] theorem record_typeReg (c : Command) (s : State) : (record c s).typeReg = s.typeReg := rfl
@[simp] theorem record_status (c : Command) (s : State) : (record c s).status = s.status := rfl
@[simp] theorem record_port (c : Command) (s : State) : (record c s).port = s.port := rfl
@[simp] theorem record_inputs (c : Command) (s : State) : (record c s).inputs = s.inputs := rfl
@[simp] theorem record_performed (c : Command) (s : State) : (record c s).performed = s.performed ++ [c] := rfl
@[simp] theorem record_taken (c : Command) (s : State) : (record c s).taken = s.taken := rfl

@[simp] theorem popEdge_crcState (s : State) : (popEdge s).crcState = s.crcState := rfl
@[simp] theorem popEdge_typeReg (s : State) : (popEdge s).typeReg = s.typeReg := rfl
@[simp] theorem popEdge_status (s : State) : (popEdge s).status = s.status := rfl
@[simp] theorem popEdge_port (s : State) : (popEdge s).port = s.port := rfl
@[simp] theorem popEdge_inputs (s : State) : (popEdge s).inputs = s.inputs.tail := rfl
@[simp] theorem popEdge_performed (s : State) : (popEdge s).performed = s.performed := rfl
@[simp] theorem popEdge_taken (s : State) : (popEdge s).taken = s.taken := rfl

@[simp] theorem resetEdge_crcState (s : State) : (resetEdge s).crcState = 0xFFFFFFFF := rfl
@[simp] theorem resetEdge_typeReg (s : State) : (resetEdge s).typeReg = 0 := rfl
@[simp] theorem resetEdge_status (s : State) : (resetEdge s).status = Status.clear := rfl
@[simp] theorem resetEdge_port (s : State) : (resetEdge s).port = .inReset := rfl
@[simp] theorem resetEdge_inputs (s : State) : (resetEdge s).inputs = s.inputs := rfl
@[simp] theorem resetEdge_performed (s : State) : (resetEdge s).performed = [] := rfl
@[simp] theorem resetEdge_taken (s : State) : (resetEdge s).taken = [] := rfl

@[simp] theorem accept_crcState (c : Command) (s : State) : (accept c s).crcState = s.crcState := rfl
@[simp] theorem accept_typeReg (c : Command) (s : State) : (accept c s).typeReg = s.typeReg := rfl
@[simp] theorem accept_status (c : Command) (s : State) : (accept c s).status = s.status := rfl
@[simp] theorem accept_port (c : Command) (s : State) : (accept c s).port = .inFlight c := rfl
@[simp] theorem accept_inputs (c : Command) (s : State) : (accept c s).inputs = s.inputs := rfl
@[simp] theorem accept_performed (c : Command) (s : State) : (accept c s).performed = s.performed := rfl
@[simp] theorem accept_taken (c : Command) (s : State) : (accept c s).taken = s.taken := rfl

@[simp] theorem release_crcState (s : State) : (release s).crcState = s.crcState := rfl
@[simp] theorem release_typeReg (s : State) : (release s).typeReg = s.typeReg := rfl
@[simp] theorem release_status (s : State) : (release s).status = s.status := rfl
@[simp] theorem release_port (s : State) : (release s).port = .ready := rfl
@[simp] theorem release_inputs (s : State) : (release s).inputs = s.inputs := rfl
@[simp] theorem release_performed (s : State) : (release s).performed = s.performed := rfl
@[simp] theorem release_taken (s : State) : (release s).taken = s.taken := rfl

end Sys2Proof.Machine
end

