-- ==== Sys2Proof/Laws/Ops.lean ====
section
/-! SUPPORT. What each shared operation can do, said once. -/

namespace Sys2Proof.Machine

/-- The answer to a type operand, in one record: flags in the data, the sticky bit only when a byte is no letter. -/
theorem answerType_eq (t : Word) (s : State) :
    answerType t s =
      { s with
        status := if letters t then s.status else { s.status with typeErr := true }
        port := .response ⟨if letters t then .ok else .error .invalidChunkType, tflags t⟩ } := by
  unfold answerType
  split <;> rename_i h <;> simp_all [respond, raise, writeStatus, setSticky]

/-- The answer of CRC_CHECK, in one record. -/
theorem answerCheck_eq (v : Word) (s : State) :
    answerCheck v s =
      { s with
        status := if v = finalize s.crcState then s.status else { s.status with crcErr := true }
        port := .response ⟨if v = finalize s.crcState then .ok else .error .crcMismatch, finalize s.crcState⟩ } := by
  unfold answerCheck
  split <;> rename_i h <;> simp_all [respond, raise, writeStatus, setSticky]

/-- The illegal-command arm, in one record. -/
theorem illegalCommandArm_eq (s : State) :
    illegalCommandArm s =
      .next { s with status := { s.status with cmdErr := true }, port := .response ⟨.error .illegalCommand, 0⟩ } := rfl

@[simp] theorem waitingResponse_inReset (s : State) (h : s.port = .inReset) : waitingResponse s = none := by
  simp [waitingResponse, h]

@[simp] theorem waitingResponse_ready (s : State) (h : s.port = .ready) : waitingResponse s = none := by
  simp [waitingResponse, h]

@[simp] theorem waitingResponse_inFlight (s : State) (c : Command) (h : s.port = .inFlight c) :
    waitingResponse s = none := by
  simp [waitingResponse, h]

@[simp] theorem waitingResponse_response (s : State) (r : Response) (h : s.port = .response r) :
    waitingResponse s = some r := by
  simp [waitingResponse, h]

/-- Taking a response that waits. -/
theorem takeResponse_of_response {s : State} {r : Response} (h : s.port = .response r) :
    takeResponse s = { s with port := .ready, taken := s.taken ++ [r] } := by
  simp [takeResponse, waitingResponse, h]

/-- Where the loop of CRC_WORD reads its four bytes. -/
theorem crcFeedWord_eq (c w : Word) :
    crcFeedWord c w =
      crcStep8 (crcStep8 (crcStep8 (crcStep8 c (w.extractLsb' 24 8)) (w.extractLsb' 16 8)) (w.extractLsb' 8 8))
        (w.extractLsb' 0 8) := rfl

/-- A command changes the registers and answers on the port: what it leaves of the model's own fields, and that an answer is
there. -/
theorem exec_cases {i : Instr} {s t : State} (h : exec i s = .next t) :
    t.inputs = s.inputs ∧ t.performed = s.performed ∧ t.taken = s.taken ∧ ∃ r, t.port = .response r := by
  cases i <;>
    simp only [exec, execNop, execCrcInit, execCrcByte, execCrcWord, execCrcRead, execCrcCheck, execCrcGetraw, execCrcSetraw,
      execChunkBegin, execTypeLoad, execTypeFlags, execTypeGet, execTypeEq, execStatRead, execStatClear, answerType_eq,
      answerCheck_eq, Host.Outcome.next.injEq] at h <;>
    subst h <;> simp

/-- The registers, status bits and answer of a command are those of any other state with the same registers. -/
theorem exec_congr {s u : State} (i : Instr) (hc : s.crcState = u.crcState) (ht : s.typeReg = u.typeReg)
    (hs : s.status = u.status) :
    ∃ t v, exec i s = .next t ∧ exec i u = .next v ∧ t.crcState = v.crcState ∧ t.typeReg = v.typeReg ∧
      t.status = v.status ∧ t.port = v.port := by
  cases i <;>
    simp [exec, execNop, execCrcInit, execCrcByte, execCrcWord, execCrcRead, execCrcCheck, execCrcGetraw, execCrcSetraw,
      execChunkBegin, execTypeLoad, execTypeFlags, execTypeGet, execTypeEq, execStatRead, execStatClear, answerType_eq,
      answerCheck_eq, hc, ht, hs]

/-- What a command performed can be: a decoded instruction's meaning, or the illegal-command arm. -/
theorem perform_cases (c : Command) (s : State) :
    (∃ i, decode c = .ok i ∧ perform c s = exec i s) ∨
      ∃ e, decode c = .error e ∧ perform c s = illegalCommandArm s := by
  unfold perform
  cases h : decode c with
  | ok i => exact .inl ⟨i, rfl, rfl⟩
  | error e => exact .inr ⟨e, rfl, rfl⟩

/-- A transaction whose command is performed: its answer ends the list of the responses taken, and the port is ready. -/
theorem transact_of_perform {c : Command} {s t : State} {r : Response} (h : perform c (record c s) = .next t)
    (hr : t.port = .response r) : transact c s = .next { t with port := .ready, taken := t.taken ++ [r] } := by
  simp [transact, h, takeResponse_of_response hr]

/-- A program after a program. -/
theorem runProgram_append {cs ds : List Command} {s t : State} (h : runProgram cs s = .next t) :
    runProgram (cs ++ ds) s = runProgram ds t := by
  induction cs generalizing s with
  | nil => simp_all [runProgram]
  | cons c cs ih =>
    simp only [runProgram, List.cons_append] at h ⊢
    cases hc : transact c s with
    | next u => simp only [hc] at h; exact ih h
    | fault f => cases f
    | refused r => simp [hc] at h

end Sys2Proof.Machine
end

