-- ==== Sys2Proof/Laws/PerInstr.lean ====
section
/-! SUPPORT. One lemma for each command: its encoding is a legal command (spec/30_encoding.md R64). -/

namespace Sys2Proof.Laws.EncodeLegal

/-- The words the encoder writes for `i` are legal. -/
def Statement (i : Instr) : Prop := (encode i).wellFormed = true

/-- Legality is a matter of the command word alone (R64). -/
theorem of_cmd {i : Instr} {cmd : Word} (hi : (encode i).cmd = cmd) (h : (Command.mk cmd 0).wellFormed = true) :
    Statement i := by
  subst hi
  exact h

theorem nop : Statement .nop := of_cmd (cmd := 0x00000000) rfl (by decide)
theorem crcInit : Statement .crcInit := of_cmd (cmd := 0x01000000) rfl (by decide)
theorem crcByte (b : Byte) : Statement (.crcByte b) := of_cmd (cmd := 0x02000000) rfl (by decide)
theorem crcWord (w : Word) : Statement (.crcWord w) := of_cmd (cmd := 0x03000000) rfl (by decide)
theorem crcRead : Statement .crcRead := of_cmd (cmd := 0x04000000) rfl (by decide)
theorem crcCheck (expected : Word) : Statement (.crcCheck expected) := of_cmd (cmd := 0x05000000) rfl (by decide)
theorem crcGetraw : Statement .crcGetraw := of_cmd (cmd := 0x06000000) rfl (by decide)
theorem crcSetraw (v : Word) : Statement (.crcSetraw v) := of_cmd (cmd := 0x07000000) rfl (by decide)
theorem chunkBegin (t : Word) : Statement (.chunkBegin t) := of_cmd (cmd := 0x08000000) rfl (by decide)
theorem typeLoad (t : Word) : Statement (.typeLoad t) := of_cmd (cmd := 0x10000000) rfl (by decide)
theorem typeFlags : Statement .typeFlags := of_cmd (cmd := 0x11000000) rfl (by decide)
theorem typeGet : Statement .typeGet := of_cmd (cmd := 0x12000000) rfl (by decide)
theorem typeEq (t : Word) : Statement (.typeEq t) := of_cmd (cmd := 0x13000000) rfl (by decide)
theorem statRead : Statement .statRead := of_cmd (cmd := 0x20000000) rfl (by decide)
theorem statClear : Statement .statClear := of_cmd (cmd := 0x21000000) rfl (by decide)

end Sys2Proof.Laws.EncodeLegal
end

