-- ==== Sys2Proof/Laws/Port.lean ====
section
/-! SUPPORT. What one clock edge, and so one step, can do. -/

namespace Sys2Proof.Machine

@[simp] theorem nextEdge_cons {s : State} {e : Edge} {es : List Edge} (h : s.inputs = e :: es) : nextEdge s = e := by
  simp [nextEdge, h]

@[simp] theorem nextEdge_nil {s : State} (h : s.inputs = []) : nextEdge s = idleEdge := by
  simp [nextEdge, h]

/-- Everything one edge can do: reset; reset ends; nothing happens; a command is accepted; a command is performed; a response is
taken. -/
theorem clockEdge_cases {e : Edge} {s t : State} (h : clockEdge e s = .next t) :
    (e.rst = true ∧ t = resetEdge s) ∨
    (e.rst = false ∧ s.port = .inReset ∧ t = release s) ∨
    (e.rst = false ∧ s.port = .ready ∧ e.cmdValid = false ∧ t = s) ∨
    (e.rst = false ∧ s.port = .ready ∧ e.cmdValid = true ∧ t = accept ⟨e.cmd, e.arg⟩ s) ∨
    (∃ c, e.rst = false ∧ s.port = .inFlight c ∧ e.busy = true ∧ t = s) ∨
    (∃ c, e.rst = false ∧ s.port = .inFlight c ∧ e.busy = false ∧ perform c (record c s) = .next t) ∨
    (∃ r, e.rst = false ∧ s.port = .response r ∧ e.rspReady = false ∧ t = s) ∨
    (∃ r, e.rst = false ∧ s.port = .response r ∧ e.rspReady = true ∧
      t = { s with port := .ready, taken := s.taken ++ [r] }) := by
  unfold clockEdge at h
  cases hr : e.rst with
  | true => simp [hr] at h; simp [h]
  | false =>
    simp only [hr, Bool.false_eq_true, if_false] at h
    cases hp : s.port with
    | inReset => simp [hp] at h; simp [h]
    | ready => cases hv : e.cmdValid <;> simp [hp, hv] at h <;> simp [h]
    | inFlight c => cases hb : e.busy <;> simp [hp, hb] at h <;> simp [h]
    | response r =>
      cases hk : e.rspReady
      · simp [hp, hk] at h; simp [h]
      · simp only [hp, hk, if_true, takeResponse_of_response hp, Host.Outcome.next.injEq] at h
        simp [← h]

/-- A step is the next sample's edge on the state without that sample. -/
theorem step_eq (s : State) : step s = clockEdge (nextEdge s) (popEdge s) := rfl

end Sys2Proof.Machine
end

