-- ==== Sys2Proof/Tests/Slice0.lean ====
section
/-! SUPPORT. Tests. The expected values are those of spec/95_test_vectors.md (the row is named at each test) or of the rule
named there, none is the model's own answer. After them, for each statement with hypotheses, a state and operands that meet
them. -/

namespace Sys2Proof.Tests

-- One test at a time: many small kernel evaluations at once ask for many threads.
set_option Elab.async false

open Sys2Proof Sys2Proof.Machine

/-- A state with these registers, ready. -/
def regs (c t : Word) (st : Status) : State := { State.reset with crcState := c, typeReg := t, status := st }

/-- A state with this command in flight. -/
def flying (c : Command) : State := { State.reset with port := .inFlight c }

/-- What a test looks at: the three registers and the response, if one waits. -/
def seen : Host.Outcome State Fault Refusal → Option (Word × Word × Word × Option (BitVec 2 × Word))
  | .next t =>
    some (t.crcState, t.typeReg, statusWord t.status, (waitingResponse t).map fun r => (rspCodeBits r.code, r.data))
  | .fault _ => none
  | .refused _ => none

/-! Well-formedness: an ill-formed command for each check of R64, and one that passes. -/

theorem test_mbz_refused : (Command.mk 0x00000001 0).mbzIsZero = false := by decide
theorem test_op_refused : (Command.mk 0x09000000 0).opIsAssigned = false := by decide
theorem test_legal_passes : (Command.mk 0x21000000 0xFFFFFFFF).wellFormed = true := by decide

/-! Decode: each row's word written out from R62 and R65. -/

theorem test_decode_nop : decode ⟨0b00000000000000000000000000000000, 0xDEADBEEF⟩ = .ok .nop := by decide
theorem test_decode_crcInit : decode ⟨0b00000001000000000000000000000000, 7⟩ = .ok .crcInit := by decide
theorem test_decode_crcByte : decode ⟨0b00000010000000000000000000000000, 0x12345668⟩ = .ok (.crcByte 0x68) := by decide
theorem test_decode_crcWord : decode ⟨0b00000011000000000000000000000000, 0x49454E44⟩ = .ok (.crcWord 0x49454E44) := by decide
theorem test_decode_crcRead : decode ⟨0b00000100000000000000000000000000, 0⟩ = .ok .crcRead := by decide
theorem test_decode_crcCheck : decode ⟨0b00000101000000000000000000000000, 0xAE426082⟩ = .ok (.crcCheck 0xAE426082) := by decide
theorem test_decode_crcGetraw : decode ⟨0b00000110000000000000000000000000, 1⟩ = .ok .crcGetraw := by decide
theorem test_decode_crcSetraw : decode ⟨0b00000111000000000000000000000000, 0x1015D60B⟩ = .ok (.crcSetraw 0x1015D60B) := by decide
theorem test_decode_chunkBegin : decode ⟨0b00001000000000000000000000000000, 0x74655374⟩ = .ok (.chunkBegin 0x74655374) := by decide
theorem test_decode_typeLoad : decode ⟨0b00010000000000000000000000000000, 0x52755354⟩ = .ok (.typeLoad 0x52755354) := by decide
theorem test_decode_typeFlags : decode ⟨0b00010001000000000000000000000000, 3⟩ = .ok .typeFlags := by decide
theorem test_decode_typeGet : decode ⟨0b00010010000000000000000000000000, 0⟩ = .ok .typeGet := by decide
theorem test_decode_typeEq : decode ⟨0b00010011000000000000000000000000, 0x72757374⟩ = .ok (.typeEq 0x72757374) := by decide
theorem test_decode_statRead : decode ⟨0b00100000000000000000000000000000, 0⟩ = .ok .statRead := by decide
theorem test_decode_statClear : decode ⟨0b00100001000000000000000000000000, 9⟩ = .ok .statClear := by decide
/-- K3, K6: a must-be-zero field that is not zero, whatever the opcode. -/
theorem test_decode_mbz :
    decode ⟨0x00000001, 0⟩ = .error .mbzNotZero ∧ decode ⟨0x01000001, 0⟩ = .error .mbzNotZero ∧
      decode ⟨0x00800000, 0⟩ = .error .mbzNotZero := by decide
/-- K4, K5 and the ends of R66's reserved ranges. -/
theorem test_decode_reserved :
    decode ⟨0x09000000, 0⟩ = .error .opUnassigned ∧ decode ⟨0x0F000000, 0⟩ = .error .opUnassigned ∧
      decode ⟨0x14000000, 0⟩ = .error .opUnassigned ∧ decode ⟨0x1F000000, 0⟩ = .error .opUnassigned ∧
      decode ⟨0x22000000, 0⟩ = .error .opUnassigned ∧ decode ⟨0xFF000000, 0⟩ = .error .opUnassigned := by decide
/-- The table's numbering: the second word's bits count on from the first's. -/
theorem test_table_word :
    decodeTableWord 32 0x08000000 = some (.chunkBegin 0) ∧
      decodeTableWord 64 0x49454E4408000000 = some (.chunkBegin 0x49454E44) ∧ decodeTableWord 32 0x09000000 = none := by
  decide

/-! CRC functions: 2.3. -/

theorem test_crcStep8 :
    crcStep8 0xFFFFFFFF 0x80 = 0xC0459352 ∧ crcStep8 0 0x01 = 0x77073096 ∧ crcStep8 0x12345678 0x00 = 0x5ECCCD58 := by
  decide +kernel
/-- V-CRC-05, the check value of R2. -/
theorem test_crc32_check_value :
    crc32 [0x31, 0x32, 0x33, 0x34, 0x35, 0x36, 0x37, 0x38, 0x39] = 0xCBF43926 := by decide +kernel
/-- V-CRC-09, by all three forms. -/
theorem test_crc32_forms :
    crc32 [0x74, 0x65, 0x53, 0x74, 0x68, 0x69] = 0x63A94EDA ∧
      crc32Normal [0x74, 0x65, 0x53, 0x74, 0x68, 0x69] = 0x63A94EDA ∧
      crcStep8ByTable 0xFFFFFFFF 0x68 = 0x6E94F918 := by decide +kernel

/-! Type flags: 2.1 (the range ends and the bytes beside them) and 90_conflicts.md C1. -/

theorem test_tflags_letters :
    tflags 0x415A617A = 0x00000F17 ∧ tflags 0x52755354 = 0x00000F2B ∧ tflags 0x52555374 = 0x00000F3F ∧
      tflags 0x72755354 = 0x00000F29 := by decide +kernel
theorem test_tflags_not_letters :
    tflags 0x40414141 = 0x00000E0E ∧ tflags 0x415B4141 = 0x00000D0E ∧ tflags 0x41416041 = 0x00000B06 ∧
      tflags 0x4141417B = 0x0000071E ∧ tflags 0xFFFFFFFF = 0x00000010 := by decide +kernel

/-! One command each: 2.2, 2.4, 2.5. -/

/-- K2. -/
theorem test_nop : seen (perform ⟨0, 0xDEADBEEF⟩ (regs 1 2 ⟨true, false, true⟩)) = some (1, 2, 5, some (0, 0)) := by decide
/-- C8. -/
theorem test_crcInit :
    seen (perform ⟨0x01000000, 0⟩ (regs 0xDEBB20E3 2 ⟨true, false, false⟩)) = some (0xFFFFFFFF, 2, 1, some (0, 0)) := by decide
/-- C4. -/
theorem test_crcByte :
    seen (perform ⟨0x02000000, 0x12345668⟩ State.reset) = some (0x6E94F918, 0, 0, some (0, 0)) := by decide +kernel
/-- C5. -/
theorem test_crcWord :
    seen (perform ⟨0x03000000, 0x49454E44⟩ State.reset) = some (0x51BD9F7D, 0, 0, some (0, 0)) := by decide +kernel
/-- P5. -/
theorem test_crcRead :
    seen (perform ⟨0x04000000, 0⟩ (regs 0x340BC6D9 0 Status.clear)) = some (0x340BC6D9, 0, 0, some (0, 0xCBF43926)) := by decide
/-- C9. -/
theorem test_crcCheck_match :
    seen (perform ⟨0x05000000, 0xAE426082⟩ (regs 0x51BD9F7D 7 Status.clear)) =
      some (0x51BD9F7D, 7, 0, some (0, 0xAE426082)) := by decide
/-- C11: a byte-swapped operand. -/
theorem test_crcCheck_mismatch :
    seen (perform ⟨0x05000000, 0x826042AE⟩ (regs 0x51BD9F7D 7 Status.clear)) =
      some (0x51BD9F7D, 7, 1, some (3, 0xAE426082)) := by decide
/-- P4. -/
theorem test_crcGetraw :
    seen (perform ⟨0x06000000, 0⟩ (regs 0x49C5E70C 1 Status.clear)) = some (0x49C5E70C, 1, 0, some (0, 0x49C5E70C)) := by decide
/-- P4. -/
theorem test_crcSetraw :
    seen (perform ⟨0x07000000, 0x49C5E70C⟩ (regs 0xCA50F9E1 0x49444154 Status.clear)) =
      some (0x49C5E70C, 0x49444154, 0, some (0, 0)) := by decide
/-- C15. -/
theorem test_chunkBegin :
    seen (perform ⟨0x08000000, 0x74655374⟩ (regs 5 6 Status.clear)) =
      some (0xB204A551, 0x74655374, 0, some (0, 0xF39)) := by decide +kernel
/-- C16: both registers are written on the error. -/
theorem test_chunkBegin_bad :
    seen (perform ⟨0x08000000, 0x525B5354⟩ State.reset) = some (0x22C6BDE1, 0x525B5354, 2, some (2, 0xD0E)) := by
  decide +kernel
/-- The reserved bit is flagged only: P3's last line. -/
theorem test_typeLoad :
    seen (perform ⟨0x10000000, 0x52557374⟩ State.reset) = some (0xFFFFFFFF, 0x52557374, 0, some (0, 0xF17)) := by decide +kernel
/-- T7, with a sticky bit already set. -/
theorem test_typeLoad_bad :
    seen (perform ⟨0x10000000, 0x525B5354⟩ (regs 9 0x74655374 ⟨true, false, false⟩)) =
      some (9, 0x525B5354, 3, some (2, 0xD0E)) := by decide +kernel
/-- T8. -/
theorem test_typeFlags :
    seen (perform ⟨0x11000000, 0⟩ (regs 4 0x525B5354 ⟨false, true, false⟩)) = some (4, 0x525B5354, 2, some (0, 0xD0E)) := by
  decide +kernel
/-- T5. -/
theorem test_typeGet :
    seen (perform ⟨0x12000000, 0⟩ (regs 4 0x74655374 Status.clear)) = some (4, 0x74655374, 0, some (0, 0x74655374)) := by decide
/-- T6: one letter's case differs. -/
theorem test_typeEq_differs :
    seen (perform ⟨0x13000000, 0x54655374⟩ (regs 4 0x74655374 Status.clear)) = some (4, 0x74655374, 0, some (0, 0)) := by decide
/-- T9: no check for letters. -/
theorem test_typeEq_same :
    seen (perform ⟨0x13000000, 0x525B5354⟩ (regs 4 0x525B5354 Status.clear)) = some (4, 0x525B5354, 0, some (0, 1)) := by decide
/-- K7. -/
theorem test_statRead :
    seen (perform ⟨0x20000000, 0⟩ (regs 1 2 ⟨true, false, true⟩)) = some (1, 2, 5, some (0, 5)) := by decide
/-- K8. -/
theorem test_statClear :
    seen (perform ⟨0x21000000, 0⟩ (regs 1 2 ⟨true, true, true⟩)) = some (1, 2, 0, some (0, 7)) := by decide
/-- K6: the opcode of CRC_INIT with a must-be-zero bit set. -/
theorem test_illegal :
    seen (perform ⟨0x01000001, 5⟩ (regs 1 2 ⟨false, true, false⟩)) = some (1, 2, 6, some (1, 0)) := by decide

/-! The port: 70_reset_and_hazards.md. -/

/-- R160: reset from any registers; the port is not ready until the first edge with `rst` low. -/
theorem test_reset_edge :
    step { flying ⟨0, 0⟩ with inputs := [{ idleEdge with rst := true }] } = .next { State.reset with port := .inReset } ∧
      cmdReady false { State.reset with port := .inReset } = false ∧
      step { State.reset with port := .inReset } = .next State.reset := ⟨rfl, rfl, rfl⟩
/-- R170: accepted with the words of that edge. -/
theorem test_accept :
    step { State.reset with inputs := [{ idleEdge with cmdValid := true, cmd := 3, arg := 4 }] } =
      .next (flying ⟨3, 4⟩) := rfl
/-- R61, R169: a command presented while one is in flight is not accepted, and the one in flight waits. -/
theorem test_busy :
    step { flying ⟨0, 0⟩ with inputs := [{ idleEdge with cmdValid := true, cmd := 3, busy := true }] } =
      .next (flying ⟨0, 0⟩) := rfl
/-- R168: taken at an edge with `rsp_ready` high, and no command is accepted at it. -/
theorem test_take :
    step { State.reset with
        port := .response ⟨.ok, 5⟩, inputs := [{ idleEdge with cmdValid := true, rspReady := true }] } =
      .next { State.reset with taken := [⟨.ok, 5⟩] } := rfl
/-- R16: with nothing presented nothing happens. -/
theorem test_idle : step State.reset = .next State.reset := rfl
/-- The first instruction after reset. -/
theorem test_fetch_word : seen (step (State.reset.withFetchWord 32 0x11000000)) = some (0xFFFFFFFF, 0, 0, some (0, 0xE)) := by
  decide +kernel

/-! Assembly lines: R68 to R70, P1, P2, P5. -/

theorem test_assemble_type :
    assembleLine "CHUNK_BEGIN \"IEND\"    ; start".toList = some [⟨0x08000000, 0x49454E44⟩] := by decide +kernel
theorem test_assemble_byte :
    assembleLine "CRC_BYTE 'h'".toList = some [⟨0x02000000, 0x68⟩] ∧ assembleLine "CRC_BYTE 256".toList = none := by
  decide +kernel
theorem test_assemble_str :
    assembleLine "CRC_STR \"123456789\"".toList =
      some [⟨0x03000000, 0x31323334⟩, ⟨0x03000000, 0x35363738⟩, ⟨0x02000000, 0x39⟩] := by decide +kernel
theorem test_assemble_verify :
    assembleLine "CHUNK_VERIFY \"teSt\", 0x63A94EDA, 0x68, 'i'".toList =
      some [⟨0x08000000, 0x74655374⟩, ⟨0x02000000, 0x68⟩, ⟨0x02000000, 0x69⟩, ⟨0x05000000, 0x63A94EDA⟩] := by
  decide +kernel
theorem test_assemble_refused :
    assembleLine "crc_init".toList = none ∧ assembleLine "NOP 1".toList = none ∧ assembleLine "CRC_WORD".toList = none := by
  decide +kernel
theorem test_listing : listing ⟨0x08000000, 0x49454E44⟩ = "08000000:49454E44".toList := by decide

/-! For each statement with hypotheses, values that meet them. -/

theorem witness_DecodeAndEncodeAgree : decode ⟨0x02000000, 0xFFFFFFFF⟩ = .ok (.crcByte 0xFF) := by decide
/-- A word that decodes to nothing. -/
theorem none_decodes : ¬ ∃ i, decode ⟨0x22000000, 0⟩ = .ok i := by
  rintro ⟨i, h⟩
  cases (show decode ⟨0x22000000, 0⟩ = .error .opUnassigned from by decide).symm.trans h
theorem witness_LegalCommandsAreFifteenWords : ¬ ∃ i, decode ⟨0x22000000, 0⟩ = .ok i := none_decodes
theorem witness_IllegalCommandArmWritesOnlyCmdErr : ¬ ∃ i, decode ⟨0x22000000, 0⟩ = .ok i := none_decodes
theorem witness_IgnoredArgBitsHaveNoEffect :
    ∀ i, decode ⟨0x02000000, 0x12345668⟩ = .ok i →
      usedArg (operandClass i) 0x12345668 = usedArg (operandClass i) 0x00000068 := by
  intro i h
  cases (show decode ⟨0x02000000, 0x12345668⟩ = .ok (.crcByte 0x68) from by decide).symm.trans h
  decide
theorem witness_StepRunsDecodedCommand :
    (flying ⟨0x21000000, 1⟩).port = .inFlight ⟨0x21000000, 1⟩ ∧ (nextEdge (flying ⟨0x21000000, 1⟩)).rst = false ∧
      (nextEdge (flying ⟨0x21000000, 1⟩)).busy = false ∧ decode ⟨0x21000000, 1⟩ = .ok .statClear := by decide
theorem witness_FetchWordRunsNext : decodeTableWord 32 0x10000000 = some (.typeLoad 0) := by decide

/-- Reset comes with a command in flight, and ends at the edge after. -/
def resetting : State := { flying ⟨3, 4⟩ with inputs := [{ idleEdge with rst := true }, idleEdge] }
theorem witness_ResetEdgeSetsEveryRegister :
    (nextEdge resetting).rst = true ∧ ∃ t, step resetting = .next t ∧ (nextEdge t).rst = false := ⟨rfl, _, rfl, rfl⟩
theorem witness_AnyPowerUpStateResets :
    resetting.inputs = { idleEdge with rst := true } :: idleEdge :: [] ∧ ({ idleEdge with rst := true } : Edge).rst = true ∧
      idleEdge.rst = false := by decide
theorem witness_ResetErasesWhatWasInFlight :
    resetting.inputs = { resetting with crcState := 5, port := .response ⟨.ok, 1⟩ }.inputs ∧
      (nextEdge resetting).rst = true := by decide

/-- A ready port at an edge where a command is presented. -/
def presented : State := { State.reset with inputs := [{ idleEdge with cmdValid := true, cmd := 0x02000000, arg := 0xFF }] }
theorem witness_AcceptanceOfCommands_accepted :
    cmdReady (nextEdge presented).rst presented = true ∧ (nextEdge presented).cmdValid = true := by decide
theorem witness_AcceptanceOfCommands_inFlight :
    ∃ t, step presented = .next t ∧ t.port = .inFlight ⟨0x02000000, 0xFF⟩ := ⟨_, rfl, rfl⟩

theorem witness_ResponseHeldUntilTaken_driven :
    ∃ t, perform ⟨0x04000000, 0⟩ State.reset = .next t := ⟨_, rfl⟩
/-- A response that waits for two edges and is lost to reset at the third. -/
def waiting : State :=
  { State.reset with
    port := .response ⟨.error .crcMismatch, 7⟩
    inputs := [idleEdge, { idleEdge with busy := true }] ++ [{ idleEdge with rst := true }] }
theorem witness_ResponseHeldUntilTaken_held :
    waiting.port = .response ⟨.error .crcMismatch, 7⟩ ∧
      waiting.inputs = [idleEdge, { idleEdge with busy := true }] ++ [{ idleEdge with rst := true }] ∧
      ∀ f ∈ [idleEdge, { idleEdge with busy := true }], f.rst = false ∧ f.rspReady = false := by decide
/-- The same response, taken at the coming edge. -/
theorem witness_ResponseHeldUntilTaken_taken :
    let s : State := { waiting with inputs := [{ idleEdge with rspReady := true }] }
    s.port = .response ⟨.error .crcMismatch, 7⟩ ∧ (nextEdge s).rst = false ∧ (nextEdge s).rspReady = true := by decide
/-- A command worked on for one edge more than the least latency. -/
def working : State := { flying ⟨0x01000000, 0⟩ with inputs := [{ idleEdge with busy := true }] ++ idleEdge :: [] }
theorem witness_EveryLatencyCompletes :
    working.port = .inFlight ⟨0x01000000, 0⟩ ∧ working.inputs = [{ idleEdge with busy := true }] ++ idleEdge :: [] ∧
      (∀ f ∈ [({ idleEdge with busy := true } : Edge)], f.rst = false ∧ f.busy = true) ∧ idleEdge.rst = false ∧
      idleEdge.busy = false := by decide
/-- A host that takes a response and goes on presenting its next command. -/
def pressing : State :=
  { State.reset with
    port := .response ⟨.ok, 0⟩
    inputs := [{ idleEdge with cmdValid := true, cmd := 9, arg := 8, rspReady := true },
      { idleEdge with cmdValid := true, cmd := 9, arg := 8 }] }
theorem witness_PresentedCommandIsAccepted :
    pressing.port = .response ⟨.ok, 0⟩ ∧ hostHolds pressing = true ∧
      pressing.inputs = { idleEdge with cmdValid := true, cmd := 9, arg := 8, rspReady := true } ::
        { idleEdge with cmdValid := true, cmd := 9, arg := 8 } :: [] := by decide

/-- A state after one performed command, and the step that performed it. -/
theorem witness_StepKeepsRunRecord : Consistent State.reset ∧ step State.reset = .next State.reset :=
  ⟨⟨State.reset, rfl, rfl, rfl, rfl, rfl⟩, rfl⟩
theorem witness_StepKeepsRunRecord_performing :
    Consistent (flying ⟨0x08000000, 0x49454E44⟩) ∧ ∃ t, step (flying ⟨0x08000000, 0x49454E44⟩) = .next t :=
  ⟨⟨State.reset, rfl, rfl, rfl, rfl, rfl⟩, _, rfl⟩
theorem witness_StepKeepsRemainderOfFedBytes :
    RemainderOfFed (flying ⟨0x03000000, 0x49454E44⟩) ∧ ∃ t, step (flying ⟨0x03000000, 0x49454E44⟩) = .next t :=
  ⟨rfl, _, rfl⟩
theorem witness_ClockedRunIsProgramResult :
    let s : State := { State.reset with inputs := schedule [(⟨0x04000000, 0⟩, ⟨1, 2, 3⟩)] ++ [idleEdge] }
    s.port = .ready ∧ s.inputs = schedule [(⟨0x04000000, 0⟩, ⟨1, 2, 3⟩)] ++ [idleEdge] := ⟨rfl, rfl⟩

/-! Each error is raised somewhere, and each sticky bit set and cleared (OneErrorAtMostPerCommand,
StatusBitsChangeOnlyByTheirCause). -/

theorem witness_crcMismatch_raised : seen (step (flying ⟨0x05000000, 1⟩)) = some (0xFFFFFFFF, 0, 1, some (3, 0)) := by
  decide +kernel
theorem witness_invalidChunkType_raised :
    seen (step (flying ⟨0x10000000, 0⟩)) = some (0xFFFFFFFF, 0, 2, some (2, 0xE)) := by decide +kernel
theorem witness_illegalCommand_raised :
    seen (step (flying ⟨0x22000000, 0⟩)) = some (0xFFFFFFFF, 0, 4, some (1, 0)) := by decide +kernel
theorem witness_status_cleared :
    seen (step { flying ⟨0x21000000, 0⟩ with status := ⟨true, true, true⟩ }) = some (0xFFFFFFFF, 0, 0, some (0, 7)) := by
  decide +kernel
/-- A step that changes both registers (RegistersWrittenOnlyByTheirCommands). -/
theorem witness_RegistersWrittenOnlyByTheirCommands :
    ∃ t, step (flying ⟨0x08000000, 0x49454E44⟩) = .next t ∧ t.typeReg = 0x49454E44 ∧ t.crcState = 0x51BD9F7D :=
  ⟨_, rfl, by decide +kernel, by decide +kernel⟩
theorem witness_StatusNeverChangesBehaviour :
    decode ⟨0x05000000, 1⟩ ≠ .ok .statRead ∧ decode ⟨0x05000000, 1⟩ ≠ .ok .statClear := by decide
/-- The two commands R126 and R127 answer `STATUS` with. -/
theorem witness_StatusNeverChangesBehaviour_excepted :
    decode ⟨0x20000000, 0⟩ = .ok .statRead ∧ decode ⟨0x21000000, 0⟩ = .ok .statClear := by decide
theorem witness_IdempotentCommandsRepeat :
    (∀ b, decode ⟨0x08000000, 5⟩ ≠ .ok (.crcByte b)) ∧ (∀ w, decode ⟨0x08000000, 5⟩ ≠ .ok (.crcWord w)) ∧
      decode ⟨0x08000000, 5⟩ ≠ .ok .statClear := by
  rw [show decode ⟨0x08000000, 5⟩ = .ok (.chunkBegin 5) from by decide]
  simp

/-- The commands whose next state later commands start from (the corner cases of R85 to R88 and R106 to R113). -/
theorem witness_next_states :
    (∃ t, exec .crcInit State.reset = .next t) ∧ (∃ t, exec .crcRead State.reset = .next t) ∧
      (∃ t, exec (.chunkBegin 0x49454E44) State.reset = .next t) ∧ (∃ t, exec (.typeLoad 0x52755354) State.reset = .next t) ∧
      (∃ t, exec (.typeLoad 0x49484452) State.reset = .next t) ∧ ∃ t, exec .statClear State.reset = .next t :=
  ⟨⟨_, rfl⟩, ⟨_, rfl⟩, ⟨_, rfl⟩, ⟨_, rfl⟩, ⟨_, rfl⟩, _, rfl⟩
theorem witness_CrcByteFeedsOneByte : State.reset.crcState = 0xFFFFFFFF := rfl
theorem witness_CrcWordFeedsFourBytes :
    ∃ t1 t2 t3, exec (.crcByte ((0x49454E44 : Word).extractLsb' 24 8)) State.reset = .next t1 ∧
      exec (.crcByte ((0x49454E44 : Word).extractLsb' 16 8)) t1 = .next t2 ∧
      exec (.crcByte ((0x49454E44 : Word).extractLsb' 8 8)) t2 = .next t3 := ⟨_, _, _, rfl, rfl, rfl⟩
theorem witness_CrcGetrawGivesRemainder :
    ∃ t u r q, exec .crcGetraw State.reset = .next t ∧ exec .crcRead State.reset = .next u ∧ t.port = .response r ∧
      u.port = .response q := ⟨_, _, _, _, rfl, rfl, rfl, rfl⟩
theorem witness_CrcSetrawRestoresRemainder :
    ∃ t r, exec .crcGetraw State.reset = .next t ∧ t.port = .response r := ⟨_, _, rfl, rfl⟩
theorem witness_ChunkBeginIsThreeCommands :
    ∃ a u v w, exec (.chunkBegin 0x49454E44) State.reset = .next a ∧ exec (.typeLoad 0x49454E44) State.reset = .next u ∧
      exec .crcInit u = .next v ∧ exec (.crcWord 0x49454E44) v = .next w := ⟨_, _, _, _, rfl, rfl, rfl, rfl⟩
/-- "RUst" has its reserved bit set and four letters; "R[ST" has a byte that is none. -/
theorem witness_TypeLoadWritesAndChecksType :
    letters 0x52557374 = true ∧ (0x52557374 : Word).getLsbD 13 = true := by decide +kernel
theorem witness_TypeFlagsGivesFlagWord :
    letters 0x525B5354 = false ∧ ∃ u, exec (.typeLoad 0x525B5354) State.reset = .next u := ⟨by decide +kernel, _, rfl⟩
/-- "hello" fed as a word and a byte, and as five bytes. -/
theorem witness_FeedSplitDoesNotMatter :
    Feeds [.crcWord 0x68656C6C, .crcByte 0x6F] [0x68, 0x65, 0x6C, 0x6C, 0x6F] ∧
      Feeds [.crcByte 0x68, .crcByte 0x65, .crcByte 0x6C, .crcByte 0x6C, .crcByte 0x6F] [0x68, 0x65, 0x6C, 0x6C, 0x6F] :=
  ⟨.cons (p := [0x68, 0x65, 0x6C, 0x6C]) (by decide) (.cons (p := [0x6F]) rfl .nil),
    .cons (p := [0x68]) rfl (.cons (p := [0x65]) rfl (.cons (p := [0x6C]) rfl (.cons (p := [0x6C]) rfl
      (.cons (p := [0x6F]) rfl .nil))))⟩
theorem witness_ChunkCrcProcedure : Feeds [.crcWord 0x68656C6C, .crcByte 0x6F] [0x68, 0x65, 0x6C, 0x6C, 0x6F] :=
  witness_FeedSplitDoesNotMatter.1
/-- L1-4: bit 0 of payload byte 0 of the "teSt" chunk. -/
theorem witness_OneFlippedBitIsCaught :
    streamBytes 0x74655374 ++ ([0x68, 0x69] : List Byte) = ([0x74, 0x65, 0x53, 0x74] : List Byte) ++ (0x68 :: [0x69] : List Byte) ∧
      streamBytes 0x74655374 ++ ([0x69, 0x69] : List Byte) = ([0x74, 0x65, 0x53, 0x74] : List Byte) ++ (((0x68 : Byte) ^^^ (1#8 <<< 0)) :: [0x69] : List Byte) ∧
      Feeds [.crcByte 0x69, .crcByte 0x69] [0x69, 0x69] :=
  ⟨by decide, by decide, .cons (p := [0x69]) rfl (.cons (p := [0x69]) rfl .nil)⟩
/-- L1-4 and 90_conflicts.md C2: bit 6 of type byte 0 of an empty "IEND" chunk. -/
theorem witness_OneFlippedBitIsCaught_type :
    streamBytes 0x49454E44 ++ ([] : List Byte) = ([] : List Byte) ++ (0x49 :: [0x45, 0x4E, 0x44] : List Byte) ∧
      streamBytes 0x09454E44 ++ ([] : List Byte) =
        ([] : List Byte) ++ (((0x49 : Byte) ^^^ (1#8 <<< 6)) :: [0x45, 0x4E, 0x44] : List Byte) ∧
      Feeds [] [] := ⟨by decide, by decide, .nil⟩
/-- The most bytes that stay single, and one more: R69's order is words first. -/
theorem witness_PseudoExpansionsFeedTheirBytes : ([1, 2, 3] : List Byte).length < 4 := by decide
theorem test_crcBytes_words_first :
    crcBytes [0x31, 0x32, 0x33, 0x34, 0x35] = [.crcWord 0x31323334, .crcByte 0x35] := by decide
/-- The highest bit of a byte. -/
theorem witness_SingleBitChangesCrc : 7 < 8 ∧ ((0x68 : Byte) ^^^ (1#8 <<< 7)) = 0xE8 := by decide
/-- Two states that agree in every answer. -/
theorem witness_WholeStateIsObservable :
    ∀ i ∈ ([.crcGetraw, .typeGet, .statRead] : List Instr), ∃ t v,
      exec i (regs 1 2 ⟨true, false, true⟩) = .next t ∧
        exec i { regs 1 2 ⟨true, false, true⟩ with performed := [⟨0, 0⟩] } = .next v ∧ t.port = v.port := by
  intro i hi
  simp only [List.mem_cons, List.not_mem_nil, or_false] at hi
  rcases hi with rfl | rfl | rfl <;> exact ⟨_, _, rfl, rfl, rfl⟩

end Sys2Proof.Tests
end

section
/-! The big-endian byte order of a word (spec/00_scope.md R10, 20_memory.md R42, R43): `byteOf` and `be32` as numbers, and
that each undoes the other. -/

namespace Sys2Proof.Machine

theorem byteOf_toNat (w : Word) (i : Fin 4) : (byteOf w i).toNat = w.toNat / 2 ^ (24 - 8 * i.val) % 256 := by
  rw [byteOf, BitVec.extractLsb'_toNat, Nat.shiftRight_eq_div_pow]

/-- The sum of `be32` fits 32 bits, so nothing of it is cut off. -/
theorem be32_toNat (b0 b1 b2 b3 : Byte) :
    (be32 b0 b1 b2 b3).toNat = b0.toNat * 2 ^ 24 + b1.toNat * 2 ^ 16 + b2.toNat * 2 ^ 8 + b3.toNat := by
  rw [be32, BitVec.toNat_ofNat, Nat.mod_eq_of_lt (by omega)]

/-- The division by the place of byte `i` drops the bytes after it, and the remainder drops those before it. -/
theorem byteOf_be32 (b0 b1 b2 b3 : Byte) (i : Fin 4) : byteOf (be32 b0 b1 b2 b3) i = [b0, b1, b2, b3].get i := by
  apply BitVec.eq_of_toNat_eq
  rw [byteOf_toNat, be32_toNat]
  match i with
  | 0 => change _ / 2 ^ 24 % 256 = b0.toNat; omega
  | 1 => change _ / 2 ^ 16 % 256 = b1.toNat; omega
  | 2 => change _ / 2 ^ 8 % 256 = b2.toNat; omega
  | 3 => change _ / 2 ^ 0 % 256 = b3.toNat; omega

theorem streamBytes_be32 (b0 b1 b2 b3 : Byte) : streamBytes (be32 b0 b1 b2 b3) = [b0, b1, b2, b3] := by
  simp [streamBytes, byteOf_be32]

/-- The four base-256 digits of a number below `2 ^ 32` add up to it. -/
theorem be32_byteOf (w : Word) : be32 (byteOf w 0) (byteOf w 1) (byteOf w 2) (byteOf w 3) = w := by
  apply BitVec.eq_of_toNat_eq
  rw [be32_toNat, byteOf_toNat, byteOf_toNat, byteOf_toNat, byteOf_toNat]
  change w.toNat / 2 ^ 24 % 256 * 2 ^ 24 + w.toNat / 2 ^ 16 % 256 * 2 ^ 16 + w.toNat / 2 ^ 8 % 256 * 2 ^ 8
    + w.toNat / 2 ^ 0 % 256 = w.toNat
  omega

/-- Settles O5: the two functions as numbers, and the two inverse directions that follow from them. -/
theorem bigEndianByteOrder : Obligations.BigEndianByteOrder :=
  ⟨byteOf_toNat, fun b0 b1 b2 b3 => ⟨be32_toNat b0 b1 b2 b3, streamBytes_be32 b0 b1 b2 b3⟩, be32_byteOf⟩

end Sys2Proof.Machine
end

section
/-! What one command does, as plain data (spec/10_state.md R20, R24, R25; 42_control.md R128): the registers and status bits it
writes and the answer it gives. `effect` is not given `STATUS`, and `perform_eq_applyTo` ties it to the model. -/

namespace Sys2Proof.Machine

/-- The writes and the answer of one command. A register or status bit at `none` is kept; data at `none` is the status word. -/
structure Effect where
  crcState : Option Word := none
  typeReg : Option Word := none
  crcErr : Option Bool := none
  typeErr : Option Bool := none
  cmdErr : Option Bool := none
  code : RspCode := .ok
  data : Option Word := some 0

/-- `STATUS` after the writes. -/
def Effect.statusAfter (e : Effect) (st : Status) : Status :=
  ⟨e.crcErr.getD st.crcErr, e.typeErr.getD st.typeErr, e.cmdErr.getD st.cmdErr⟩

/-- The state after the writes and the answer. -/
def Effect.applyTo (e : Effect) (s : State) : State :=
  { s with
    crcState := e.crcState.getD s.crcState
    typeReg := e.typeReg.getD s.typeReg
    status := e.statusAfter s.status
    port := .response ⟨e.code, e.data.getD (statusWord s.status)⟩ }

/-- The answer to a type operand (R137). -/
def typeAnswer (t : Word) : Effect where
  typeErr := if letters t then none else some true
  code := if letters t then .ok else .error .invalidChunkType
  data := some (tflags t)

/-- The answer of CRC_CHECK (R138). -/
def checkAnswer (v computed : Word) : Effect where
  crcErr := if v = computed then none else some true
  code := if v = computed then .ok else .error .crcMismatch
  data := some computed

/-- What a command does, decoded or found illegal, when `CRC_STATE` is `crc` and `TYPE_REG` is `type`. -/
def effect (crc type : Word) : Except DecodeError Instr → Effect
  | .error _ => { cmdErr := some true, code := .error .illegalCommand }
  | .ok .nop => {}
  | .ok .crcInit => { crcState := some crcInitial }
  | .ok (.crcByte b) => { crcState := some (crcStep8 crc b) }
  | .ok (.crcWord w) => { crcState := some (crcFeedWord crc w) }
  | .ok .crcRead => { data := some (finalize crc) }
  | .ok (.crcCheck v) => checkAnswer v (finalize crc)
  | .ok .crcGetraw => { data := some crc }
  | .ok (.crcSetraw v) => { crcState := some v }
  | .ok (.chunkBegin t) => { typeAnswer t with crcState := some (crcFeedWord crcInitial t), typeReg := some t }
  | .ok (.typeLoad t) => { typeAnswer t with typeReg := some t }
  | .ok .typeFlags => { data := some (tflags type) }
  | .ok .typeGet => { data := some type }
  | .ok (.typeEq t) => { data := some (if typeEq type t then 1 else 0) }
  | .ok .statRead => { data := none }
  | .ok .statClear => { crcErr := some false, typeErr := some false, cmdErr := some false, data := none }

theorem answerType_eq_applyTo (t : Word) (s : State) : answerType t s = (typeAnswer t).applyTo s := by
  rw [answerType_eq]
  cases h : letters t <;> simp [Effect.applyTo, Effect.statusAfter, typeAnswer, h]

theorem answerCheck_eq_applyTo (v : Word) (s : State) :
    answerCheck v s = (checkAnswer v (finalize s.crcState)).applyTo s := by
  rw [answerCheck_eq]
  by_cases h : v = finalize s.crcState <;> simp [Effect.applyTo, Effect.statusAfter, checkAnswer, h]

/-- The two commands that answer a type operand write their registers before it; every other arm is its own record. -/
theorem exec_eq_applyTo (i : Instr) (s : State) :
    exec i s = .next ((effect s.crcState s.typeReg (.ok i)).applyTo s) := by
  cases i with
  | crcCheck v => exact congrArg _ (answerCheck_eq_applyTo v s)
  | chunkBegin t => exact congrArg _ (answerType_eq_applyTo t (writeCrc (crcFeedWord crcInitial t) (writeType t s)))
  | typeLoad t => exact congrArg _ (answerType_eq_applyTo t (writeType t s))
  | _ => rfl

theorem perform_eq_applyTo (c : Command) (s : State) :
    perform c s = .next ((effect s.crcState s.typeReg (decode c)).applyTo s) := by
  obtain ⟨i, hd, hp⟩ | ⟨e, hd, hp⟩ := perform_cases c s
  · rw [hp, hd, exec_eq_applyTo]
  · rw [hp, hd]; rfl

/-! Which command writes what. -/

section
variable {crc type : Word} {d : Except DecodeError Instr}

theorem effect_crcState_written {v : Word} (h : (effect crc type d).crcState = some v) :
    ∃ i, d = .ok i ∧
      (i = .crcInit ∨ (∃ b, i = .crcByte b) ∨ (∃ w, i = .crcWord w) ∨ (∃ v, i = .crcSetraw v) ∨ ∃ w, i = .chunkBegin w) := by
  cases d with
  | error e => simp [effect] at h
  | ok i => cases i with
    | crcInit | crcByte b | crcWord w | crcSetraw u | chunkBegin t => simp
    | _ => simp [effect, checkAnswer, typeAnswer] at h

theorem effect_typeReg_written {v : Word} (h : (effect crc type d).typeReg = some v) :
    ∃ i, d = .ok i ∧ ((∃ w, i = .typeLoad w) ∨ ∃ w, i = .chunkBegin w) := by
  cases d with
  | error e => simp [effect] at h
  | ok i => cases i with
    | typeLoad t | chunkBegin t => simp
    | _ => simp [effect, checkAnswer] at h

theorem effect_crcErr_set (h : (effect crc type d).crcErr = some true) :
    ∃ v, d = .ok (.crcCheck v) ∧ v ≠ finalize crc := by
  cases d with
  | error e => simp [effect] at h
  | ok i => cases i with
    | crcCheck v => exact ⟨v, rfl, by simpa [effect, checkAnswer] using h⟩
    | _ => simp [effect, typeAnswer] at h

theorem effect_typeErr_set (h : (effect crc type d).typeErr = some true) :
    ∃ w, (d = .ok (.typeLoad w) ∨ d = .ok (.chunkBegin w)) ∧ letters w = false := by
  cases d with
  | error e => simp [effect] at h
  | ok i => cases i with
    | typeLoad t => exact ⟨t, .inl rfl, by simpa [effect, typeAnswer] using h⟩
    | chunkBegin t => exact ⟨t, .inr rfl, by simpa [effect, typeAnswer] using h⟩
    | _ => simp [effect, checkAnswer] at h

theorem effect_cmdErr_set (h : (effect crc type d).cmdErr = some true) : ∃ e, d = .error e := by
  cases d with
  | error e => exact ⟨e, rfl⟩
  | ok i => cases i <;> simp [effect, checkAnswer, typeAnswer] at h

theorem effect_status_cleared
    (h : (effect crc type d).crcErr = some false ∨ (effect crc type d).typeErr = some false ∨
      (effect crc type d).cmdErr = some false) : d = .ok .statClear := by
  cases d with
  | error e => simp [effect] at h
  | ok i => cases i with
    | statClear => rfl
    | _ => simp [effect, checkAnswer, typeAnswer] at h

/-- Only the two commands of R126 and R127 answer the status word. -/
theorem effect_data_eq_none_iff : (effect crc type d).data = none ↔ d = .ok .statRead ∨ d = .ok .statClear := by
  cases d with
  | error e => simp [effect]
  | ok i => cases i <;> simp [effect, checkAnswer, typeAnswer]

end

end Sys2Proof.Machine
end

section
/-! What one step writes (spec/10_state.md R20, R24, R25), and the state after reset (R33). -/

namespace Sys2Proof.Machine

/-- What one step does to the three registers: reset, nothing, or the writes of the command in flight. -/
theorem step_registers {s t : State} (h : step s = .next t) :
    ((nextEdge s).rst = true ∧ t = resetEdge (popEdge s)) ∨
    (t.crcState = s.crcState ∧ t.typeReg = s.typeReg ∧ t.status = s.status) ∨
    ∃ c, s.port = .inFlight c ∧
      t = (effect s.crcState s.typeReg (decode c)).applyTo (record c (popEdge s)) := by
  rw [step_eq] at h
  obtain ⟨hr, rfl⟩ | ⟨-, -, rfl⟩ | ⟨-, -, -, rfl⟩ | ⟨-, -, -, rfl⟩ | ⟨c, -, -, -, rfl⟩ | ⟨c, -, hp, -, hc⟩ |
    ⟨r, -, -, -, rfl⟩ | ⟨r, -, -, -, rfl⟩ := clockEdge_cases h
  case inl => exact .inl ⟨hr, rfl⟩
  case inr.inr.inr.inr.inr.inl =>
    rw [perform_eq_applyTo, Host.Outcome.next.injEq] at hc
    exact .inr (.inr ⟨c, hp, hc.symm⟩)
  all_goals exact .inr (.inl ⟨rfl, rfl, rfl⟩)

/-- A value that a write changes was written. -/
theorem eq_some_of_getD_ne {α : Type} {o : Option α} {a b : α} (h : o.getD a = b) (hne : a ≠ b) : o = some b := by
  obtain ho | ⟨-, hab⟩ := Option.getD_eq_iff.mp h
  · exact ho
  · exact absurd hab hne

/-- A status bit that a write changes was written with its new value. -/
theorem eq_some_of_getD_bit {o : Option Bool} {a b : Bool} (ha : a = !b) (h : o.getD a = b) : o = some b :=
  eq_some_of_getD_ne h (by simp [ha])

/-- Settles O23: a step that resets leaves no bit set, and one that performs no command keeps all three. -/
theorem statusBitsChangeOnlyByTheirCause : Obligations.StatusBitsChangeOnlyByTheirCause := by
  intro s t h
  obtain ⟨hr, rfl⟩ | ⟨-, -, hst⟩ | ⟨c, hp, rfl⟩ := step_registers h
  · simp [Status.clear, hr]
  · simp +contextual [hst]
  · refine ⟨fun ha hb => ?_, fun ha hb => ?_, fun ha hb => ?_, fun hcl => .inr ⟨c, hp, ?_⟩⟩
    · obtain ⟨v, hd, hv⟩ := effect_crcErr_set (eq_some_of_getD_bit ha hb)
      exact ⟨c, v, hp, hd, hv⟩
    · obtain ⟨w, hd, hw⟩ := effect_typeErr_set (eq_some_of_getD_bit ha hb)
      exact ⟨c, w, hp, hd, hw⟩
    · obtain ⟨e, hd⟩ := effect_cmdErr_set (eq_some_of_getD_bit ha hb)
      exact ⟨c, e, hp, hd⟩
    · apply effect_status_cleared (crc := s.crcState) (type := s.typeReg)
      obtain ⟨ha, hb⟩ | ⟨ha, hb⟩ | ⟨ha, hb⟩ := hcl
      · exact .inl (eq_some_of_getD_bit ha hb)
      · exact .inr (.inl (eq_some_of_getD_bit ha hb))
      · exact .inr (.inr (eq_some_of_getD_bit ha hb))

/-- Settles O24: a register that changed was written, so the command in flight is one that writes it. -/
theorem registersWrittenOnlyByTheirCommands : Obligations.RegistersWrittenOnlyByTheirCommands := by
  intro s t h
  obtain ⟨hr, -⟩ | ⟨hc, ht, -⟩ | ⟨c, hp, rfl⟩ := step_registers h
  · exact ⟨fun _ => .inl hr, fun _ => .inl hr⟩
  · exact ⟨fun hne => absurd hc hne, fun hne => absurd ht hne⟩
  · refine ⟨fun hne => .inr ?_, fun hne => .inr ?_⟩
    · obtain ⟨i, hd, hi⟩ := effect_crcState_written (eq_some_of_getD_ne rfl hne.symm)
      exact ⟨c, i, hp, hd, hi⟩
    · obtain ⟨i, hd, hi⟩ := effect_typeReg_written (eq_some_of_getD_ne rfl hne.symm)
      exact ⟨c, i, hp, hd, hi⟩

/-- Settles O25: the next state, the code and what is done to each bit are those of `effect`, which never sees `STATUS`. -/
theorem statusNeverChangesBehaviour : Obligations.StatusNeverChangesBehaviour := by
  intro c s
  have hperform : ∀ st, perform c { s with status := st } =
      .next ((effect s.crcState s.typeReg (decode c)).applyTo { s with status := st }) :=
    fun st => perform_eq_applyTo c { s with status := st }
  have hdata := effect_data_eq_none_iff (crc := s.crcState) (type := s.typeReg) (d := decode c)
  generalize effect s.crcState s.typeReg (decode c) = e at hperform hdata
  refine ⟨e.applyTo s, e.code, e.data.getD 0, e.crcErr, e.typeErr, e.cmdErr, fun st =>
    ⟨e.data.getD (statusWord st), hperform st, fun hread hclear => ?_, fun hexcepted => ?_⟩⟩
  · cases hd : e.data with
    | none => exact absurd (hdata.mp hd) (not_or_intro hread hclear)
    | some w => rfl
  · rw [hdata.mpr hexcepted, Option.getD_none]

/-- Settles O10. -/
theorem resetStateValues : Obligations.ResetStateValues := ⟨rfl, rfl, rfl, rfl⟩

/-- Settles O19: the empty program's result is the state it starts from, and no bytes leave the remainder as it was. -/
theorem resetMeetsBothInvariants : Obligations.ResetMeetsBothInvariants :=
  ⟨⟨State.reset, rfl, rfl, rfl, rfl, rfl⟩, rfl⟩

end Sys2Proof.Machine
end

section
/-! What an `Effect` leaves in each field, that its writes are idempotent, and one transaction through it (spec/42_control.md
R128, R131). -/

namespace Sys2Proof.Machine

/-- The response an effect gives when `STATUS` is `st`. -/
def Effect.answer (e : Effect) (st : Status) : Response := ⟨e.code, e.data.getD (statusWord st)⟩

section
variable (e : Effect) (s : State)

@[simp] theorem Effect.applyTo_crcState : (e.applyTo s).crcState = e.crcState.getD s.crcState := rfl
@[simp] theorem Effect.applyTo_typeReg : (e.applyTo s).typeReg = e.typeReg.getD s.typeReg := rfl
@[simp] theorem Effect.applyTo_status : (e.applyTo s).status = e.statusAfter s.status := rfl
@[simp] theorem Effect.applyTo_port : (e.applyTo s).port = .response (e.answer s.status) := rfl
@[simp] theorem Effect.applyTo_inputs : (e.applyTo s).inputs = s.inputs := rfl
@[simp] theorem Effect.applyTo_performed : (e.applyTo s).performed = s.performed := rfl
@[simp] theorem Effect.applyTo_taken : (e.applyTo s).taken = s.taken := rfl

end

/-- A value written twice, or kept twice. -/
theorem getD_getD_self {α : Type} (o : Option α) (a : α) : o.getD (o.getD a) = o.getD a := by
  cases o <;> rfl

theorem Effect.statusAfter_idem (e : Effect) (st : Status) : e.statusAfter (e.statusAfter st) = e.statusAfter st := by
  simp only [Effect.statusAfter, getD_getD_self]

/-- Every write stores a fixed value, so only an answer that reads a `STATUS` the effect changes could differ. -/
theorem Effect.applyTo_idem {e : Effect} {s : State} (h : e.data = none → e.statusAfter s.status = s.status) :
    e.applyTo (e.applyTo s) = e.applyTo s := by
  have hanswer : e.answer (e.statusAfter s.status) = e.answer s.status := by
    unfold Effect.answer
    cases hd : e.data with
    | none => rw [h hd]
    | some w => rfl
  calc e.applyTo (e.applyTo s)
      = { s with
          crcState := e.crcState.getD (e.crcState.getD s.crcState)
          typeReg := e.typeReg.getD (e.typeReg.getD s.typeReg)
          status := e.statusAfter (e.statusAfter s.status)
          port := .response (e.answer (e.statusAfter s.status)) } := rfl
    _ = e.applyTo s := by rw [getD_getD_self, getD_getD_self, e.statusAfter_idem, hanswer]; rfl

/-- A transaction's writes are those of `effect`, and its one answer ends the list of the responses taken. -/
theorem transact_eq_applyTo (c : Command) (s : State) :
    transact c s = .next
      { (effect s.crcState s.typeReg (decode c)).applyTo (record c s) with
        port := .ready
        taken := s.taken ++ [(effect s.crcState s.typeReg (decode c)).answer s.status] } :=
  transact_of_perform (perform_eq_applyTo c (record c s)) rfl

end Sys2Proof.Machine
end

section
/-! The run record (spec/20_memory.md R52; 42_control.md R128, R131): every step keeps `Consistent`. -/

namespace Sys2Proof.Machine

/-- What one step does to the record of the run: reset, nothing (a response that is taken moves from the port to the end of the
list), or the command in flight is performed. -/
theorem step_runRecord {s t : State} (h : step s = .next t) :
    t = resetEdge (popEdge s) ∨
    (t.performed = s.performed ∧ t.crcState = s.crcState ∧ t.typeReg = s.typeReg ∧ t.status = s.status ∧
      responseList t = responseList s) ∨
    ∃ c, s.port = .inFlight c ∧ perform c (record c (popEdge s)) = .next t := by
  rw [step_eq] at h
  obtain ⟨-, rfl⟩ | ⟨-, hp, rfl⟩ | ⟨-, -, -, rfl⟩ | ⟨-, hp, -, rfl⟩ | ⟨c, -, -, -, rfl⟩ | ⟨c, -, hp, -, hc⟩ |
    ⟨r, -, -, -, rfl⟩ | ⟨r, -, hp, -, rfl⟩ := clockEdge_cases h
  case inl => exact .inl rfl
  case inr.inr.inr.inr.inr.inl => exact .inr (.inr ⟨c, hp, hc⟩)
  case inr.inl | inr.inr.inr.inl | inr.inr.inr.inr.inr.inr.inr =>
    rw [popEdge_port] at hp
    exact .inr (.inl ⟨rfl, rfl, rfl, rfl, by simp [responseList, waitingResponse, hp]⟩)
  all_goals exact .inr (.inl ⟨rfl, rfl, rfl, rfl, rfl⟩)

/-- `Consistent` reads the record, the registers and the response list, and nothing else. -/
theorem Consistent.congr {s t : State} (h : Consistent s) (hp : t.performed = s.performed)
    (hc : t.crcState = s.crcState) (ht : t.typeReg = s.typeReg) (hs : t.status = s.status)
    (hl : responseList t = responseList s) : Consistent t := by
  unfold Consistent
  rw [hp, hc, ht, hs, hl]
  exact h

/-- After reset nothing is recorded, and the registers are those of reset. -/
theorem consistent_resetEdge (s : State) : Consistent (resetEdge s) :=
  ⟨State.reset, rfl, rfl, rfl, rfl, rfl⟩

/-- A program with one command more. -/
theorem runProgram_concat {cs : List Command} {c : Command} {s t u : State} (h : runProgram cs s = .next t)
    (hc : transact c t = .next u) : runProgram (cs ++ [c]) s = .next u := by
  rw [runProgram_append h, runProgram, hc]
  rfl

/-- Performing the command in flight does to the registers what its transaction does to the program's result, and the answer
that now waits is the one response the transaction adds. -/
theorem Consistent.of_perform {s t : State} {c : Command} (h : Consistent s) (hport : s.port = .inFlight c)
    (ht : perform c (record c s) = .next t) : Consistent t := by
  obtain ⟨r, hrun, hcrc, htype, hstatus, htaken⟩ := h
  rw [perform_eq_applyTo, Host.Outcome.next.injEq] at ht
  subst ht
  refine ⟨_, runProgram_concat hrun (transact_eq_applyTo c r), ?_⟩
  simp [hcrc, htype, hstatus, htaken, responseList, waitingResponse, hport]

/-- Settles O17: reset starts the record anew, an edge that performs no command keeps all that the record speaks of, and a
command performed is the program's next. -/
theorem stepKeepsRunRecord : Obligations.StepKeepsRunRecord := by
  intro s t hs h
  obtain rfl | ⟨hp, hc, ht, hst, hl⟩ | ⟨c, hport, hc⟩ := step_runRecord h
  · exact consistent_resetEdge _
  · exact hs.congr hp hc ht hst hl
  · exact (hs.congr rfl rfl rfl rfl rfl : Consistent (popEdge s)).of_perform hport hc

end Sys2Proof.Machine
end

section
/-! Feeding bytes (spec/20_memory.md R46; 41_crc.md R103): however a byte sequence is split into CRC_BYTE and CRC_WORD, the run
depends on the sequence alone. -/

namespace Sys2Proof

/-- A byte operand loses nothing when it is zero-extended to the word on the port. -/
theorem byteOperand_setWidth (b : Byte) : Machine.byteOperand (b.setWidth 32) = b := by
  rw [Machine.byteOperand, ← BitVec.setWidth_eq_extractLsb' (by omega), BitVec.setWidth_setWidth_of_le _ (by omega),
    BitVec.setWidth_eq]

/-- A command word is its opcode above 24 zeros (R62, R64), so the opcode alone says which command it is. -/
theorem decode_of_op {c : Command} {i : Instr} (op : BitVec 8) (hcmd : c.cmd = op ++ 0#24)
    (hi : instrOfOp op c.arg = some i) : decode c = .ok i := by
  have hmbz : Machine.mbzField c.cmd = 0 := by
    rw [hcmd, Machine.mbzField, BitVec.extractLsb'_append_eq_right]
    rfl
  have hop : Machine.opField c.cmd = op := by
    rw [hcmd, Machine.opField, BitVec.extractLsb'_append_eq_left]
  simp only [decode, hmbz, hop, hi, if_true]

theorem decode_encode (i : Instr) : decode (encode i) = .ok i := by
  cases i with
  | nop => exact decode_of_op 0x00 rfl rfl
  | crcInit => exact decode_of_op 0x01 rfl rfl
  | crcByte b => exact decode_of_op 0x02 rfl (congrArg (fun x => some (Instr.crcByte x)) (byteOperand_setWidth b))
  | crcWord w => exact decode_of_op 0x03 rfl rfl
  | crcRead => exact decode_of_op 0x04 rfl rfl
  | crcCheck v => exact decode_of_op 0x05 rfl rfl
  | crcGetraw => exact decode_of_op 0x06 rfl rfl
  | crcSetraw v => exact decode_of_op 0x07 rfl rfl
  | chunkBegin t => exact decode_of_op 0x08 rfl rfl
  | typeLoad t => exact decode_of_op 0x10 rfl rfl
  | typeFlags => exact decode_of_op 0x11 rfl rfl
  | typeGet => exact decode_of_op 0x12 rfl rfl
  | typeEq t => exact decode_of_op 0x13 rfl rfl
  | statRead => exact decode_of_op 0x20 rfl rfl
  | statClear => exact decode_of_op 0x21 rfl rfl

end Sys2Proof

namespace Sys2Proof.Machine

theorem crcUpdate_append (c : Word) (a b : List Byte) : crcUpdate c (a ++ b) = crcUpdate (crcUpdate c a) b := by
  induction a generalizing c with
  | nil => rfl
  | cons x xs ih => exact ih (crcStep8 c x)

/-- A feeding command writes the remainder of its bytes, and nothing else. -/
theorem effect_of_feedBytes {i : Instr} {p : List Byte} (crc type : Word) (h : feedBytes i = some p) :
    effect crc type (.ok i) = { crcState := some (crcUpdate crc p) } := by
  cases i with
  | crcByte b | crcWord w => cases h; rfl
  | _ => cases h

theorem transact_of_feedBytes {i : Instr} {p : List Byte} (s : State) (h : feedBytes i = some p) :
    ∃ t, transact (encode i) s = .next t ∧ t.crcState = crcUpdate s.crcState p ∧ t.typeReg = s.typeReg ∧
      t.status = s.status := by
  refine ⟨_, transact_eq_applyTo (encode i) s, ?_⟩
  rw [decode_encode, effect_of_feedBytes _ _ h]
  exact ⟨rfl, rfl, rfl⟩

theorem runProgram_of_feeds {fs : List Instr} {m : List Byte} (h : Feeds fs m) (s : State) :
    ∃ r, runProgram (fs.map encode) s = .next r ∧ r.crcState = crcUpdate s.crcState m ∧ r.typeReg = s.typeReg ∧
      r.status = s.status := by
  induction h generalizing s with
  | nil => exact ⟨s, rfl, rfl, rfl, rfl⟩
  | @cons i p fs m hi _ ih =>
    obtain ⟨t, hrun, hcrc, htype, hstatus⟩ := transact_of_feedBytes s hi
    obtain ⟨r, hrun', hcrc', htype', hstatus'⟩ := ih t
    refine ⟨r, ?_, ?_, htype'.trans htype, hstatus'.trans hstatus⟩
    · rw [List.map_cons, runProgram, hrun]
      exact hrun'
    · rw [hcrc', hcrc, crcUpdate_append]

/-- Settles O46: each list's run is determined by the bytes it feeds. -/
theorem feedSplitDoesNotMatter : Obligations.FeedSplitDoesNotMatter := by
  intro s fs gs m hf hg
  obtain ⟨r, hr, hrcrc, hrtype, hrstatus⟩ := runProgram_of_feeds hf s
  obtain ⟨q, hq, hqcrc, hqtype, hqstatus⟩ := runProgram_of_feeds hg s
  exact ⟨r, q, hr, hq, hrcrc, hqcrc, hrtype, hqtype, hrstatus, hqstatus⟩

end Sys2Proof.Machine
end

section
/-! Commands performed twice (spec/20_memory.md R49). -/

namespace Sys2Proof.Machine

/-- But for the two feeding commands, what a command writes does not change what it does the next time: none reads a register
that it writes. -/
theorem effect_after_own_writes {d : Except DecodeError Instr} (crc type : Word) (hbyte : ∀ b, d ≠ .ok (.crcByte b))
    (hword : ∀ w, d ≠ .ok (.crcWord w)) :
    effect ((effect crc type d).crcState.getD crc) ((effect crc type d).typeReg.getD type) d = effect crc type d := by
  cases d with
  | error e => rfl
  | ok i => cases i with
    | crcByte b => exact absurd rfl (hbyte b)
    | crcWord w => exact absurd rfl (hword w)
    | _ => rfl

/-- But for STAT_CLEAR, a command that answers `STATUS` leaves it as it is. -/
theorem effect_keeps_status_it_answers {crc type : Word} {d : Except DecodeError Instr} (hclear : d ≠ .ok .statClear)
    (h : (effect crc type d).data = none) (st : Status) : (effect crc type d).statusAfter st = st := by
  obtain rfl | hd := effect_data_eq_none_iff.mp h
  · rfl
  · exact absurd hd hclear

/-- Settles O55: the second time the command does the same, and to do it again changes nothing. -/
theorem idempotentCommandsRepeat : Obligations.IdempotentCommandsRepeat := by
  intro c s hbyte hword hclear
  refine ⟨_, perform_eq_applyTo c s, ?_⟩
  rw [perform_eq_applyTo, Effect.applyTo_crcState, Effect.applyTo_typeReg, effect_after_own_writes _ _ hbyte hword,
    Effect.applyTo_idem (fun h => effect_keeps_status_it_answers hclear h s.status)]

end Sys2Proof.Machine
end

section
/-! What the decoder reads (spec/30_encoding.md R62 to R65): the two fields of a command word, what an opcode stands for,
and the bits of `arg` that its operand class uses. -/

namespace Sys2Proof

open Machine

/-- A command word is its two fields (R62). -/
theorem opField_append_mbzField (cmd : Word) : opField cmd ++ mbzField cmd = cmd := by
  rw [opField, mbzField, BitVec.extractLsb'_append_extractLsb'_eq_extractLsb' (by rfl), BitVec.extractLsb'_eq_self]

theorem decode_eq_ok_iff {c : Command} {i : Instr} :
    decode c = .ok i ↔ mbzField c.cmd = 0 ∧ instrOfOp (opField c.cmd) c.arg = some i := by
  unfold decode
  split
  next hmbz => cases instrOfOp (opField c.cmd) c.arg <;> simp [hmbz]
  next hmbz => exact ⟨nofun, fun h => absurd h.1 hmbz⟩

/-- An opcode stands for a command exactly when it is assigned, whatever `arg` is (R64, R65). -/
theorem exists_instrOfOp_iff {op : BitVec 8} {arg : Word} : (∃ i, instrOfOp op arg = some i) ↔ op ∈ assignedOps := by
  unfold instrOfOp
  split
  case h_16 => simp_all [assignedOps]
  all_goals simp [assignedOps]

theorem exists_decode_iff {c : Command} :
    (∃ i, decode c = .ok i) ↔ mbzField c.cmd = 0 ∧ opField c.cmd ∈ assignedOps := by
  simp only [decode_eq_ok_iff, exists_and_left, exists_instrOfOp_iff]

theorem wellFormed_iff {c : Command} : c.wellFormed = true ↔ mbzField c.cmd = 0 ∧ opField c.cmd ∈ assignedOps := by
  simp [Command.wellFormed, Command.mbzIsZero, Command.opIsAssigned]

/-- The low byte of `arg`, zero-extended, is `arg` with the bits above it cleared. -/
theorem setWidth_byteOperand (arg : Word) : (byteOperand arg).setWidth 32 = usedArg .byte arg := by
  apply BitVec.eq_of_toNat_eq
  have hmask : (usedArg .byte arg).toNat = arg.toNat % 2 ^ 8 := Nat.and_two_pow_sub_one_eq_mod arg.toNat 8
  rw [hmask, byteOperand, BitVec.toNat_setWidth, BitVec.extractLsb'_toNat, Nat.shiftRight_zero]
  omega

theorem usedArg_byte_eq_iff {a a' : Word} : usedArg .byte a = usedArg .byte a' ↔ byteOperand a = byteOperand a' := by
  rw [← setWidth_byteOperand, ← setWidth_byteOperand]
  refine ⟨fun h => ?_, congrArg _⟩
  rw [← byteOperand_setWidth (byteOperand a), h, byteOperand_setWidth]

/-- The encoder writes a command's opcode above 24 zeros, and the bits of `arg` the command was read from. -/
theorem encode_of_instrOfOp {op : BitVec 8} {arg : Word} {i : Instr} (h : instrOfOp op arg = some i) :
    encode i = ⟨op ++ 0#24, usedArg (operandClass i) arg⟩ := by
  unfold instrOfOp at h
  split at h
  -- the third row of R65 is CRC_BYTE, whose operand is the low byte alone
  case h_3 =>
    cases h
    exact congrArg (Command.mk _) (setWidth_byteOperand arg)
  all_goals cases h <;> rfl

/-- An opcode reads the used bits of `arg` and no others (R63). -/
theorem instrOfOp_congr_usedArg {op : BitVec 8} {a a' : Word} {i : Instr} (h : instrOfOp op a = some i)
    (hused : usedArg (operandClass i) a = usedArg (operandClass i) a') : instrOfOp op a' = some i := by
  unfold instrOfOp at h
  split at h
  -- the rows of R65 by operand class: `byte`; then `word`, `value` and `type`; then `none`
  case h_3 =>
    cases h
    exact congrArg (fun b => some (Instr.crcByte b)) (usedArg_byte_eq_iff.mp hused).symm
  case h_4 | h_6 | h_8 | h_9 | h_10 | h_13 =>
    cases h
    cases hused
    rfl
  all_goals cases h <;> rfl

theorem decode_congr_usedArg {cmd a a' : Word} {i : Instr} (h : decode ⟨cmd, a⟩ = .ok i)
    (hused : usedArg (operandClass i) a = usedArg (operandClass i) a') : decode ⟨cmd, a'⟩ = .ok i := by
  obtain ⟨hmbz, hop⟩ := decode_eq_ok_iff.mp h
  exact decode_eq_ok_iff.mpr ⟨hmbz, instrOfOp_congr_usedArg hop hused⟩

/-- The must-be-zero field is looked at first (R128). -/
theorem decode_of_illegal {c : Command} (h : ¬ ∃ i, decode c = .ok i) :
    decode c = .error (if mbzField c.cmd = 0 then .opUnassigned else .mbzNotZero) := by
  unfold decode at h ⊢
  split
  · cases hop : instrOfOp (opField c.cmd) c.arg <;> simp_all
  · rfl

/-- Which error a command gets is a matter of the command word alone (R64). -/
theorem decode_congr_of_illegal {cmd a : Word} (a' : Word) (h : ¬ ∃ i, decode ⟨cmd, a⟩ = .ok i) :
    decode ⟨cmd, a⟩ = decode ⟨cmd, a'⟩ := by
  have h' : ¬ ∃ i, decode ⟨cmd, a'⟩ = .ok i := fun hex =>
    h ((exists_decode_iff (c := ⟨cmd, a⟩)).mpr ((exists_decode_iff (c := ⟨cmd, a'⟩)).mp hex))
  rw [decode_of_illegal h, decode_of_illegal h']

end Sys2Proof

namespace Sys2Proof.Machine

theorem perform_of_decode {c : Command} {i : Instr} (h : decode c = .ok i) (s : State) : perform c s = exec i s := by
  rw [perform, h]

theorem perform_of_illegal {c : Command} (h : ¬ ∃ i, decode c = .ok i) (s : State) :
    perform c s = illegalCommandArm s := by
  rw [perform, decode_of_illegal h]

/-- What a command does is a matter of what it decodes to. -/
theorem perform_congr {c c' : Command} (h : decode c = decode c') (s : State) : perform c s = perform c' s := by
  rw [perform, perform, h]

/-- Settles O1: a command that decodes is its opcode above 24 zeros, which is what the encoder writes. -/
theorem decodeAndEncodeAgree : Obligations.DecodeAndEncodeAgree := by
  refine ⟨decode_encode, fun c i h => ?_⟩
  obtain ⟨hmbz, hop⟩ := decode_eq_ok_iff.mp h
  have hcmd : opField c.cmd ++ 0#24 = c.cmd := by
    conv_rhs => rw [← opField_append_mbzField c.cmd, hmbz]
    rfl
  rw [encode_of_instrOfOp hop]
  exact ⟨hcmd, rfl⟩

/-- Settles O2: `assignedOps` is the list of the fifteen opcodes, and decode and the check look at the same two fields. -/
theorem legalCommandsAreFifteenWords : Obligations.LegalCommandsAreFifteenWords :=
  fun _ => ⟨exists_decode_iff, wellFormed_iff.trans exists_decode_iff.symm, perform_of_illegal⟩

/-- Settles O3: each word is its row's opcode above 24 zeros. -/
theorem opcodeMapRows : Obligations.OpcodeMapRows := fun _ =>
  ⟨decode_of_op 0x00 rfl rfl, decode_of_op 0x01 rfl rfl, decode_of_op 0x02 rfl rfl, decode_of_op 0x03 rfl rfl,
    decode_of_op 0x04 rfl rfl, decode_of_op 0x05 rfl rfl, decode_of_op 0x06 rfl rfl, decode_of_op 0x07 rfl rfl,
    decode_of_op 0x08 rfl rfl, decode_of_op 0x10 rfl rfl, decode_of_op 0x11 rfl rfl, decode_of_op 0x12 rfl rfl,
    decode_of_op 0x13 rfl rfl, decode_of_op 0x20 rfl rfl, decode_of_op 0x21 rfl rfl⟩

/-- Settles O4: a legal command is read from the used bits alone, and an illegal one from `cmd` alone. -/
theorem ignoredArgBitsHaveNoEffect : Obligations.IgnoredArgBitsHaveNoEffect := by
  refine ⟨fun cmd a a' s hused => ?_, fun a a' => ⟨rfl, usedArg_byte_eq_iff, rfl, rfl, rfl⟩⟩
  have hdecode : decode ⟨cmd, a⟩ = decode ⟨cmd, a'⟩ := by
    by_cases hlegal : ∃ i, decode ⟨cmd, a⟩ = .ok i
    · obtain ⟨i, hi⟩ := hlegal
      rw [hi, decode_congr_usedArg hi (hused i hi)]
    · exact decode_congr_of_illegal a' hlegal
  exact ⟨hdecode, perform_congr hdecode s⟩

end Sys2Proof.Machine
end

section
/-! What CRC_BYTES expands to (spec/30_encoding.md R69). -/

namespace Sys2Proof.Machine

theorem feeds_map_crcByte (bs : List Byte) : Feeds (bs.map .crcByte) bs := by
  induction bs with
  | nil => exact .nil
  | cons b bs ih => exact .cons (p := [b]) rfl ih

theorem feeds_crcWord {fs : List Instr} {m : List Byte} (b0 b1 b2 b3 : Byte) (h : Feeds fs m) :
    Feeds (.crcWord (be32 b0 b1 b2 b3) :: fs) (b0 :: b1 :: b2 :: b3 :: m) :=
  .cons (p := [b0, b1, b2, b3]) (congrArg some (streamBytes_be32 b0 b1 b2 b3)) h

/-- Fewer than four bytes stay single. -/
theorem crcBytes_of_short {bs : List Byte} (h : bs.length < 4) : crcBytes bs = bs.map .crcByte := by
  match bs with
  | [] | [_] | [_, _] | [_, _, _] => rfl
  | _ :: _ :: _ :: _ :: bs => simp at h; omega

/-- Four bytes at a time, then those that are left. -/
theorem crcBytes_feeds (bs : List Byte) :
    Feeds (crcBytes bs) bs ∧ (crcBytes bs).length = bs.length / 4 + bs.length % 4 := by
  induction bs using crcBytes.induct with
  | case1 b0 b1 b2 b3 bs ih =>
    obtain ⟨hfeeds, hlength⟩ := ih
    refine ⟨feeds_crcWord b0 b1 b2 b3 hfeeds, ?_⟩
    simp only [crcBytes, List.length_cons, hlength]
    omega
  | case2 bs hshort =>
    have hlt : bs.length < 4 := by
      match bs with
      | [] | [_] | [_, _] | [_, _, _] => simp
      | b0 :: b1 :: b2 :: b3 :: bs => exact absurd rfl (hshort b0 b1 b2 b3 bs)
    rw [crcBytes_of_short hlt, List.length_map]
    exact ⟨feeds_map_crcByte bs, by omega⟩

/-- Settles O52: the bytes and the count are by the recursion of `crcBytes`, the rest is its equations. -/
theorem pseudoExpansionsFeedTheirBytes : Obligations.PseudoExpansionsFeedTheirBytes :=
  ⟨crcBytes_feeds, fun _ _ _ _ _ => rfl, fun _ => crcBytes_of_short, fun _ _ _ => ⟨rfl, rfl, rfl⟩⟩

end Sys2Proof.Machine
end

section
/-! One edge by the phase of the port, and the command in flight performed (spec/30_encoding.md R61; 42_control.md R128). -/

namespace Sys2Proof.Machine

section
variable {e : Edge} {s : State}

theorem clockEdge_of_ready (hrst : e.rst = false) (hport : s.port = .ready) :
    clockEdge e s = .next (if e.cmdValid then accept ⟨e.cmd, e.arg⟩ s else s) := by
  simp [clockEdge, hrst, hport]

theorem clockEdge_of_inFlight {c : Command} (hrst : e.rst = false) (hport : s.port = .inFlight c) :
    clockEdge e s = if e.busy then .next s else perform c (record c s) := by
  simp [clockEdge, hrst, hport]

theorem clockEdge_of_response {r : Response} (hrst : e.rst = false) (hport : s.port = .response r) :
    clockEdge e s = .next (if e.rspReady then takeResponse s else s) := by
  simp [clockEdge, hrst, hport]

end

/-- Settles O6: the edge performs the command in flight, and to perform it is to run what it decodes to. -/
theorem stepRunsDecodedCommand : Obligations.StepRunsDecodedCommand := by
  intro s c i hport hrst hbusy hdecode
  calc step s = perform c (record c (popEdge s)) := by
        rw [step_eq, clockEdge_of_inFlight (s := popEdge s) hrst hport, hbusy]
        rfl
    _ = exec i (record c (popEdge s)) := perform_of_decode hdecode _

theorem decodeTableWord_eq_some_iff {nbits w : Nat} {i : Instr} :
    decodeTableWord nbits w = some i ↔ decode (commandOfBits nbits w) = .ok i := by
  unfold decodeTableWord
  cases decode (commandOfBits nbits w) <;> simp

/-- The edge after withFetchWord neither resets nor is busy, listed or not. -/
theorem nextEdge_withFetchWord (s : State) (nbits w : Nat) :
    (nextEdge (s.withFetchWord nbits w)).rst = false ∧ (nextEdge (s.withFetchWord nbits w)).busy = false := by
  unfold State.withFetchWord
  cases s.inputs <;> exact ⟨rfl, rfl⟩

theorem letComplete_tail (es : List Edge) : (letComplete es).tail = es.tail := by
  cases es <;> rfl

/-- Settles O7: withFetchWord leaves the command in flight, with an edge to come at which it completes. -/
theorem fetchWordRunsNext : Obligations.FetchWordRunsNext := by
  intro s nbits w i h
  obtain ⟨hrst, hbusy⟩ := nextEdge_withFetchWord s nbits w
  rw [stepRunsDecodedCommand _ _ i rfl hrst hbusy (decodeTableWord_eq_some_iff.mp h), ← letComplete_tail s.inputs]
  rfl

end Sys2Proof.Machine
end

section
/-! Whole runs of edges (spec/70_reset_and_hazards.md R168 to R170): edges that change nothing, and the edges of one
transaction. -/

namespace Sys2Proof.Machine

/-- A step at a listed sample. -/
theorem step_of_inputs {s : State} {e : Edge} {es : List Edge} (h : s.inputs = e :: es) :
    step s = clockEdge e { s with inputs := es } := by
  rw [step_eq, nextEdge_cons h, popEdge, h, List.tail_cons]

theorem stepN_of_clockEdge {s t : State} {e : Edge} {es : List Edge} (h : s.inputs = e :: es)
    (ht : clockEdge e { s with inputs := es } = .next t) (n : Nat) : stepN (n + 1) s = stepN n t := by
  rw [stepN, step_of_inputs h, ht]

/-- Edges at which nothing happens, whatever is listed after them, only use up their samples. -/
theorem stepN_of_stays {s : State} {es rest : List Edge} (h : s.inputs = es ++ rest)
    (hstay : ∀ f ∈ es, ∀ x, clockEdge f { s with inputs := x } = .next { s with inputs := x }) (n : Nat) :
    stepN (es.length + n) s = stepN n { s with inputs := rest } := by
  induction es generalizing s with
  | nil => rw [← h.trans (List.nil_append rest), List.length_nil, Nat.zero_add]
  | cons e es ih =>
    rw [List.length_cons, Nat.add_right_comm, stepN_of_clockEdge h (hstay e List.mem_cons_self _)]
    exact ih rfl fun f hf => hstay f (List.mem_cons_of_mem e hf)

section
variable {s : State} {c : Command} {r : Response} {es rest : List Edge} {e : Edge}

/-- Edges at which nothing happens, then one at which something does. -/
theorem stepN_of_stays_then {t : State} (h : s.inputs = es ++ e :: rest)
    (hstay : ∀ f ∈ es, ∀ x, clockEdge f { s with inputs := x } = .next { s with inputs := x })
    (ht : clockEdge e { s with inputs := rest } = .next t) (n : Nat) : stepN (es.length + (n + 1)) s = stepN n t := by
  rw [stepN_of_stays h hstay]
  exact stepN_of_clockEdge (s := { s with inputs := e :: rest }) rfl ht n

/-- A ready port waits for a command, and accepts it (R170). -/
theorem stepN_until_accepted (hport : s.port = .ready) (h : s.inputs = es ++ e :: rest)
    (hes : ∀ f ∈ es, f.rst = false ∧ f.cmdValid = false) (hrst : e.rst = false) (hvalid : e.cmdValid = true) (n : Nat) :
    stepN (es.length + (n + 1)) s = stepN n { s with port := .inFlight ⟨e.cmd, e.arg⟩, inputs := rest } := by
  refine stepN_of_stays_then h (fun f hf x => ?_) ?_ n
  · obtain ⟨hfrst, hfvalid⟩ := hes f hf
    exact (clockEdge_of_ready (s := { s with inputs := x }) hfrst hport).trans (by rw [hfvalid, if_neg Bool.false_ne_true])
  · exact (clockEdge_of_ready (s := { s with inputs := rest }) hrst hport).trans (by rw [if_pos hvalid, accept])

/-- A command in flight is worked on, and performed at the first edge that is not busy (R169). -/
theorem stepN_until_performed {t : State} (hport : s.port = .inFlight c) (h : s.inputs = es ++ e :: rest)
    (hes : ∀ f ∈ es, f.rst = false ∧ f.busy = true) (hrst : e.rst = false) (hbusy : e.busy = false)
    (ht : perform c (record c { s with inputs := rest }) = .next t) (n : Nat) :
    stepN (es.length + (n + 1)) s = stepN n t := by
  refine stepN_of_stays_then h (fun f hf x => ?_) ?_ n
  · obtain ⟨hfrst, hfbusy⟩ := hes f hf
    exact (clockEdge_of_inFlight (s := { s with inputs := x }) hfrst hport).trans (if_pos hfbusy)
  · exact (clockEdge_of_inFlight (s := { s with inputs := rest }) hrst hport).trans
      (by rw [hbusy, if_neg Bool.false_ne_true, ht])

/-- A response is held until the host takes it (R168). -/
theorem stepN_until_taken (hport : s.port = .response r) (h : s.inputs = es ++ e :: rest)
    (hes : ∀ f ∈ es, f.rst = false ∧ f.rspReady = false) (hrst : e.rst = false) (htake : e.rspReady = true) (n : Nat) :
    stepN (es.length + (n + 1)) s =
      stepN n { s with port := .ready, inputs := rest, taken := s.taken ++ [r] } := by
  refine stepN_of_stays_then h (fun f hf x => ?_) ?_ n
  · obtain ⟨hfrst, hftake⟩ := hes f hf
    exact (clockEdge_of_response (s := { s with inputs := x }) hfrst hport).trans (by rw [hftake, if_neg Bool.false_ne_true])
  · exact (clockEdge_of_response (s := { s with inputs := rest }) hrst hport).trans
      (by rw [if_pos htake, takeResponse_of_response (s := { s with inputs := rest }) hport])

end

/-- The state after a transaction (R61): its command's writes, its record, and its response among those taken. -/
def afterTransaction (c : Command) (s : State) : State :=
  { (effect s.crcState s.typeReg (decode c)).applyTo (record c s) with
    port := .ready
    taken := s.taken ++ [(effect s.crcState s.typeReg (decode c)).answer s.status] }

theorem transact_eq_afterTransaction (c : Command) (s : State) : transact c s = .next (afterTransaction c s) :=
  transact_eq_applyTo c s

/-- The edge at which the host presents a command. -/
def presentEdge (c : Command) : Edge := { idleEdge with cmdValid := true, cmd := c.cmd, arg := c.arg }

/-- An edge at which the command in flight is worked on. -/
def busyEdge : Edge := { idleEdge with busy := true }

/-- The edge at which the host takes the response. -/
def takeEdge : Edge := { idleEdge with rspReady := true }

/-- The three waits of a transaction, each with the edge that ends it. -/
theorem transactionEdges_append (c : Command) (d : Timing) (rest : List Edge) :
    transactionEdges c d ++ rest =
      List.replicate d.idle idleEdge ++ presentEdge c :: (List.replicate d.busy busyEdge ++ idleEdge ::
        (List.replicate d.hold idleEdge ++ takeEdge :: rest)) := by
  simp [transactionEdges, presentEdge, busyEdge, takeEdge]

theorem transactionEdges_length_add (c : Command) (d : Timing) (n : Nat) :
    (transactionEdges c d).length + n =
      (List.replicate d.idle idleEdge).length + ((List.replicate d.busy busyEdge).length +
        ((List.replicate d.hold idleEdge).length + (n + 1) + 1) + 1) := by
  simp only [transactionEdges, List.length_append, List.length_replicate, List.length_singleton]
  omega

/-- Every timing of a transaction leads to the same result. -/
theorem stepN_transactionEdges {s : State} {c : Command} {d : Timing} {rest : List Edge} (hport : s.port = .ready)
    (hinputs : s.inputs = transactionEdges c d ++ rest) (n : Nat) :
    stepN ((transactionEdges c d).length + n) s = stepN n (afterTransaction c { s with inputs := rest }) := by
  rw [transactionEdges_append] at hinputs
  rw [transactionEdges_length_add,
    stepN_until_accepted hport hinputs (List.forall_mem_replicate.mpr (.inr ⟨rfl, rfl⟩)) rfl rfl,
    stepN_until_performed rfl rfl (List.forall_mem_replicate.mpr (.inr ⟨rfl, rfl⟩)) rfl rfl (perform_eq_applyTo _ _),
    stepN_until_taken rfl rfl (List.forall_mem_replicate.mpr (.inr ⟨rfl, rfl⟩)) rfl rfl]
  rfl

/-- Settles O20: one transaction after another, by induction on the program. -/
theorem clockedRunIsProgramResult : Obligations.ClockedRunIsProgramResult := by
  intro p rest
  induction p with
  | nil =>
    rintro s - rfl
    rfl
  | cons ct p ih =>
    obtain ⟨c, d⟩ := ct
    intro s hport hinputs
    rw [schedule, List.append_assoc] at hinputs
    calc stepN (schedule ((c, d) :: p)).length s
        = stepN (schedule p).length (afterTransaction c { s with inputs := schedule p ++ rest }) := by
          rw [schedule, List.length_append, stepN_transactionEdges hport hinputs]
      _ = runProgram (p.map Prod.fst) (afterTransaction c { s with inputs := rest }) := ih _ rfl rfl
      _ = runProgram (((c, d) :: p).map Prod.fst) { s with inputs := rest } := by
          rw [List.map_cons, runProgram, transact_eq_afterTransaction]

end Sys2Proof.Machine
end

section
/-! The chunk-type functions (spec/40_chunk_type.md R75 to R82): the properties from bit 5 of the type bytes, and the flag
word bit by bit. -/

namespace Sys2Proof.Machine

/-- R75: the letter ranges as numbers. -/
theorem letterOk_iff {b : Byte} :
    letterOk b = true ↔ (0x41 ≤ b.toNat ∧ b.toNat ≤ 0x5A) ∨ (0x61 ≤ b.toNat ∧ b.toNat ≤ 0x7A) := by
  simp [letterOk, BitVec.le_def]

theorem critical_iff {t : Word} : critical t = true ↔ (byteOf t 0).getLsbD 5 = false :=
  iff_of_eq (Bool.not_eq_true' _)
theorem isPublic_iff {t : Word} : isPublic t = true ↔ (byteOf t 1).getLsbD 5 = false :=
  iff_of_eq (Bool.not_eq_true' _)
theorem reservedOk_iff {t : Word} : reservedOk t = true ↔ (byteOf t 2).getLsbD 5 = false :=
  iff_of_eq (Bool.not_eq_true' _)
theorem safeToCopy_iff {t : Word} : safeToCopy t = true ↔ (byteOf t 3).getLsbD 5 = true := .rfl
theorem valid_iff {t : Word} : valid t = true ↔ letters t = true ∧ reservedOk t = true := Bool.and_eq_true_iff

/-- Where bit 5 of each type byte stands in the type word. -/
theorem byteOf_getLsbD_five (t : Word) (i : Fin 4) : (byteOf t i).getLsbD 5 = t.getLsbD (24 - 8 * i.val + 5) := by
  simp [byteOf]

/-- A mask of one bit leaves nothing exactly when that bit is clear. -/
theorem and_twoPow_eq_zero_iff {w : Word} {k : Nat} (hk : k < 32) :
    w &&& BitVec.twoPow 32 k = 0 ↔ w.getLsbD k = false := by
  have hone : BitVec.twoPow 32 k ≠ 0#32 := fun h => by
    have hbit := congrArg (BitVec.getLsbD · k) h
    simp [hk] at hbit
  rw [BitVec.and_twoPow]
  cases w.getLsbD k <;> simp [hone]

/-- Bit 5 of a type byte, by its mask of the type word (R77 to R80). -/
theorem byteOf_bit_five_clear_iff_mask {t : Word} (i : Fin 4) :
    (byteOf t i).getLsbD 5 = false ↔ t &&& BitVec.twoPow 32 (24 - 8 * i.val + 5) = 0 := by
  rw [byteOf_getLsbD_five, and_twoPow_eq_zero_iff (by omega)]

/-- Settles O42: each property is bit 5 of its byte by definition, and each mask is the power of two at that bit's place. -/
theorem typePropertiesFromBytes : Obligations.TypePropertiesFromBytes :=
  ⟨fun _ => letterOk_iff, fun _ =>
    ⟨rfl, critical_iff, critical_iff.trans (byteOf_bit_five_clear_iff_mask 0),
      isPublic_iff, isPublic_iff.trans (byteOf_bit_five_clear_iff_mask 1),
      reservedOk_iff, reservedOk_iff.trans (byteOf_bit_five_clear_iff_mask 2),
      safeToCopy_iff,
      safeToCopy_iff.trans ((iff_of_eq (Bool.not_eq_false _)).symm.trans (byteOf_bit_five_clear_iff_mask 3).not),
      valid_iff⟩⟩

theorem flagBit_getLsbD {k : Nat} (hk : k < 32) (b : Bool) (j : Nat) :
    (flagBit k b).getLsbD j = (b && decide (k = j)) := by
  cases b with
  | false => exact BitVec.getLsbD_zero
  | true => simp [flagBit, ← BitVec.twoPow_eq, BitVec.getLsbD_twoPow, hk]

/-- R82: the flag that each bit of the flag word holds. -/
def flagAt (t : Word) : Nat → Bool
  | 0 => letters t
  | 1 => critical t
  | 2 => isPublic t
  | 3 => reservedOk t
  | 4 => safeToCopy t
  | 5 => valid t
  | 8 => letterOk (byteOf t 0)
  | 9 => letterOk (byteOf t 1)
  | 10 => letterOk (byteOf t 2)
  | 11 => letterOk (byteOf t 3)
  | _ => false

theorem flagAt_of_ge {k : Nat} (t : Word) (hk : 12 ≤ k) : flagAt t k = false := by
  obtain ⟨j, rfl⟩ := Nat.exists_eq_add_of_le' hk
  rfl

/-- The ten flags stand at ten different places, so no bit mixes two of them. -/
theorem tflags_getLsbD (t : Word) (k : Nat) : (tflags t).getLsbD k = flagAt t k := by
  simp only [tflags, BitVec.getLsbD_or, flagBit_getLsbD, Nat.reduceLT]
  by_cases hk : 12 ≤ k
  · have hne : ∀ m < 12, decide (m = k) = false := fun m hm => decide_eq_false (by omega)
    simp [hne, flagAt_of_ge t hk]
  · interval_cases k <;> simp [flagAt]

/-- Settles O43: the twelve lower bits one by one, and those above them together. -/
theorem flagWordBits : Obligations.FlagWordBits := fun t =>
  ⟨tflags_getLsbD t 0, tflags_getLsbD t 1, tflags_getLsbD t 2, tflags_getLsbD t 3, tflags_getLsbD t 4, tflags_getLsbD t 5,
    tflags_getLsbD t 6, tflags_getLsbD t 7, tflags_getLsbD t 8, tflags_getLsbD t 9, tflags_getLsbD t 10,
    tflags_getLsbD t 11, fun k hk => (tflags_getLsbD t k).trans (flagAt_of_ge t hk)⟩

end Sys2Proof.Machine
end

section
/-! The commands of the chunk-type flag extractor (spec/40_chunk_type.md R85 to R88): one equation each, and what the reading
ones answer after TYPE_LOAD. -/

namespace Sys2Proof.Machine

section
variable (t : Word) (s : State)

theorem exec_typeLoad :
    exec (.typeLoad t) s = .next
      { s with
        typeReg := t
        status := if letters t then s.status else { s.status with typeErr := true }
        port := .response ⟨if letters t then .ok else .error .invalidChunkType, tflags t⟩ } :=
  congrArg _ (answerType_eq t (writeType t s))

theorem exec_typeFlags : exec .typeFlags s = .next { s with port := .response ⟨.ok, tflags s.typeReg⟩ } := rfl

theorem exec_typeGet : exec .typeGet s = .next { s with port := .response ⟨.ok, s.typeReg⟩ } := rfl

theorem exec_typeEq :
    exec (.typeEq t) s = .next { s with port := .response ⟨.ok, if s.typeReg = t then 1 else 0⟩ } := by
  by_cases h : s.typeReg = t <;> simp [exec, execTypeEq, typeEq, respond, h]

end

/-- A type of four letters is loaded with no error. -/
theorem exec_typeLoad_of_letters {t : Word} (h : letters t = true) (s : State) :
    exec (.typeLoad t) s = .next { s with typeReg := t, port := .response ⟨.ok, tflags t⟩ } := by
  rw [exec_typeLoad, h]
  rfl

section
variable {t : Word} {s u : State}

theorem typeReg_of_typeLoad (h : exec (.typeLoad t) s = .next u) : u.typeReg = t := by
  rw [exec_typeLoad, Host.Outcome.next.injEq] at h
  rw [← h]

/-- Loading a type again changes nothing (R85). -/
theorem exec_typeLoad_again (h : exec (.typeLoad t) s = .next u) : exec (.typeLoad t) u = .next u := by
  have hdecode := decode_encode (.typeLoad t)
  obtain ⟨v, hfirst, hsecond⟩ :=
    idempotentCommandsRepeat (encode (.typeLoad t)) s (by simp [hdecode]) (by simp [hdecode]) (by simp [hdecode])
  rw [perform_of_decode hdecode] at hfirst hsecond
  rw [h, Host.Outcome.next.injEq] at hfirst
  rwa [hfirst]

theorem exec_typeFlags_after_typeLoad (h : exec (.typeLoad t) s = .next u) :
    exec .typeFlags u = .next { u with port := .response ⟨.ok, tflags t⟩ } := by
  rw [exec_typeFlags, typeReg_of_typeLoad h]

theorem exec_typeGet_after_typeLoad (h : exec (.typeLoad t) s = .next u) :
    exec .typeGet u = .next { u with port := .response ⟨.ok, t⟩ } := by
  rw [exec_typeGet, typeReg_of_typeLoad h]

theorem exec_typeEq_after_typeLoad (h : exec (.typeLoad t) s = .next u) (v : Word) :
    exec (.typeEq v) u = .next { u with port := .response ⟨.ok, if t = v then 1 else 0⟩ } := by
  rw [exec_typeEq, typeReg_of_typeLoad h]

end

/-- A set reserved bit: bit 5 of type byte 2 is bit 13 of the type word. -/
theorem reservedOk_eq_not_bit (t : Word) : reservedOk t = !t.getLsbD 13 :=
  congrArg (!·) (byteOf_getLsbD_five t 2)

/-- Settles O38: a type with its reserved bit set takes the arm of four letters, and has neither flag that asks for a clear
one. -/
theorem typeLoadWritesAndChecksType : Obligations.TypeLoadWritesAndChecksType := by
  refine ⟨fun _ => decode_of_op 0x10 rfl rfl, exec_typeLoad, fun t s u h =>
    ⟨exec_typeLoad_again h, exec_typeFlags_after_typeLoad h, exec_typeGet_after_typeLoad h⟩,
    fun t hletters hbit s => ?_, fun s => ?_⟩
  · have hreserved : reservedOk t = false := by rw [reservedOk_eq_not_bit, hbit, Bool.not_true]
    have hvalid : valid t = false := by rw [valid, hreserved, Bool.and_false]
    exact ⟨tflags t, _, exec_typeLoad_of_letters hletters s, rfl,
      (tflags_getLsbD t 3).trans hreserved, (tflags_getLsbD t 5).trans hvalid⟩
  · have hletters : letters 0x52755374 = true := by decide
    have hflags : tflags 0x52755374 = 0x00000F3B := by decide
    rw [exec_typeLoad_of_letters hletters, hflags]

/-- Settles O39: TYPE_LOAD leaves the loaded word in TYPE_REG whether or not it failed, so R82 says what each bit shows. -/
theorem typeFlagsGivesFlagWord : Obligations.TypeFlagsGivesFlagWord := by
  refine ⟨fun _ => decode_of_op 0x11 rfl rfl, exec_typeFlags, ?_, fun t s u hletters h => ?_, fun s u h => ?_⟩
  · have hflags : tflags State.reset.typeReg = 0x0000000E := by decide
    rw [exec_typeFlags, hflags]
  · exact ⟨tflags t, exec_typeFlags_after_typeLoad h, (tflags_getLsbD t 0).trans hletters, tflags_getLsbD t 8,
      tflags_getLsbD t 9, tflags_getLsbD t 10, tflags_getLsbD t 11⟩
  · have hflags : tflags 0x49484452 = 0x00000F2F := by decide
    rw [exec_typeFlags_after_typeLoad h, hflags]

/-- Settles O40: TYPE_LOAD leaves the loaded word in TYPE_REG whether or not it failed. -/
theorem typeGetGivesTypeBytes : Obligations.TypeGetGivesTypeBytes :=
  ⟨fun _ => decode_of_op 0x12 rfl rfl, exec_typeGet, fun _ _ _ => exec_typeGet_after_typeLoad, exec_typeGet State.reset,
    fun _ => rfl⟩

/-- Settles O41: the examples are the equation at two words, one that differs from the loaded word and one that is it. -/
theorem typeEqComparesAllBits : Obligations.TypeEqComparesAllBits := by
  refine ⟨fun _ => decode_of_op 0x13 rfl rfl, exec_typeEq, exec_typeEq 0 State.reset, fun s u h => ⟨?_, ?_⟩⟩
  · rw [exec_typeEq_after_typeLoad h, if_neg (by decide)]
  · rw [exec_typeEq_after_typeLoad h, if_pos rfl]

end Sys2Proof.Machine
end

section
/-! The remainder of the bytes fed (spec/41_crc.md R100; 20_memory.md R41): every step keeps `RemainderOfFed`. -/

namespace Sys2Proof.Machine

theorem fedFrom_append (f : Word × List Byte) (cs ds : List Command) :
    fedFrom f (cs ++ ds) = fedFrom (fedFrom f cs) ds := by
  induction cs generalizing f with
  | nil => rfl
  | cons c cs ih =>
    rw [List.cons_append, fedFrom, fedFrom]
    cases decode c with
    | ok i => exact ih (fedAfter f i)
    | error e => exact ih f

/-- What a command writes to `CRC_STATE` is the remainder of what it makes of the fed sequence: the feeding commands add their
bytes at the end, the starting ones begin anew, and the others leave both alone. -/
theorem effect_crcState_of_fedAfter (f : Word × List Byte) (type : Word) (i : Instr) :
    (effect (crcUpdate f.1 f.2) type (.ok i)).crcState.getD (crcUpdate f.1 f.2) =
      crcUpdate (fedAfter f i).1 (fedAfter f i).2 := by
  cases i with
  | crcByte b => exact (crcUpdate_append f.1 f.2 [b]).symm
  | crcWord w => exact (crcUpdate_append f.1 f.2 (streamBytes w)).symm
  | _ => rfl

/-- The command performed is the last of the record, so it is the last to act on the fed sequence too. -/
theorem RemainderOfFed.of_perform {s t : State} {c : Command} (h : RemainderOfFed s)
    (ht : perform c (record c s) = .next t) : RemainderOfFed t := by
  rw [perform_eq_applyTo, Host.Outcome.next.injEq] at ht
  subst ht
  unfold RemainderOfFed fed at h ⊢
  simp only [Effect.applyTo_crcState, Effect.applyTo_performed, record_crcState, record_typeReg, record_performed,
    fedFrom_append, fedFrom]
  cases decode c with
  | ok i => rw [h, effect_crcState_of_fedAfter]
  | error e => exact h

/-- Settles O18: reset starts the record and the remainder anew, an edge that performs no command keeps both, and a command
performed does to the remainder what it does to the fed sequence. -/
theorem stepKeepsRemainderOfFedBytes : Obligations.StepKeepsRemainderOfFedBytes := by
  intro s t hs h
  obtain rfl | ⟨hp, hc, -⟩ | ⟨c, -, hc⟩ := step_runRecord h
  · rfl
  · unfold RemainderOfFed
    rw [hp, hc]
    exact hs
  · exact RemainderOfFed.of_perform (s := popEdge s) hs hc

end Sys2Proof.Machine
end

section
/-! The CRC functions (spec/41_crc.md R101 to R105): the shift loop is linear over XOR and loses no remainder, and the table
form and the single-bit property follow from that. -/

namespace Sys2Proof.Machine

theorem crcShifts_eq_iterate (n : Nat) (c : Word) : crcShifts n c = crcShift^[n] c := by
  induction n generalizing c with
  | zero => rfl
  | succ n ih => exact ih (crcShift c)

/-- Settles O44: the function iterated is `crcShift` written out. -/
theorem crcStep8IsTheLoop : Obligations.CrcStep8IsTheLoop :=
  ⟨fun c b => crcShifts_eq_iterate 8 (c ^^^ b.setWidth 32), fun _ => rfl⟩

/-- Settles O45. -/
theorem crcUpdateOfConcatenation : Obligations.CrcUpdateOfConcatenation :=
  ⟨crcUpdate_append, by decide⟩

/-! Linearity. -/

/-- One turn, with the polynomial as a summand. -/
theorem crcShift_eq (c : Word) : crcShift c = (c >>> 1) ^^^ (if c.getLsbD 0 then polyReflected else 0) := by
  unfold crcShift
  split <;> simp

theorem crcShift_xor (x y : Word) : crcShift (x ^^^ y) = crcShift x ^^^ crcShift y := by
  have hpoly : ∀ p q : Bool, (if p ^^ q then polyReflected else 0) =
      (if p then polyReflected else 0) ^^^ (if q then polyReflected else 0) := by decide
  rw [crcShift_eq, crcShift_eq, crcShift_eq, BitVec.ushiftRight_xor_distrib, BitVec.getLsbD_xor, hpoly]
  ac_rfl

theorem crcShifts_xor (n : Nat) (x y : Word) : crcShifts n (x ^^^ y) = crcShifts n x ^^^ crcShifts n y := by
  induction n generalizing x y with
  | zero => rfl
  | succ n ih => rw [crcShifts, crcShift_xor, ih]; rfl

/-! The table form. -/

/-- While only zeros fall out, the loop is a shift. -/
theorem crcShifts_of_low_clear {n : Nat} {c : Word} (h : ∀ i < n, c.getLsbD i = false) : crcShifts n c = c >>> n := by
  induction n generalizing c with
  | zero => exact (BitVec.ushiftRight_zero c).symm
  | succ n ih =>
    have hshift : crcShift c = c >>> 1 := if_neg (Bool.eq_false_iff.mp (h 0 n.succ_pos))
    have hclear : ∀ i < n, (c >>> 1).getLsbD i = false := fun i hi => by
      rw [BitVec.getLsbD_ushiftRight]
      exact h (1 + i) (by omega)
    rw [crcShifts, hshift, ih hclear, ← BitVec.shiftRight_add, Nat.add_comm]

/-- A word is its upper 24 bits XOR its low byte. -/
theorem word_eq_high_xor_low (x : Word) : x = (x >>> 8 <<< 8) ^^^ (byteOperand x).setWidth 32 := by
  ext i hi
  by_cases h : i < 8
  · simp [byteOperand, h, hi]
  · simp [byteOperand, h, Nat.add_sub_cancel' (Nat.le_of_not_lt h), hi]

/-- Eight turns on a whole remainder: its upper 24 bits only move down, its low byte goes through the table. -/
theorem crcShifts_eight (x : Word) : crcShifts 8 x = (x >>> 8) ^^^ crcTable (byteOperand x) := by
  have hclear : ∀ i < 8, (x >>> 8 <<< 8).getLsbD i = false := fun i hi => by simp [hi]
  have hhigh : x >>> 8 <<< 8 >>> 8 = x >>> 8 := by
    ext i hi
    simpa using BitVec.lt_of_getLsbD
  have htable : crcTable (byteOperand x) = crcShifts 8 ((byteOperand x).setWidth 32) :=
    congrArg (crcShifts 8) BitVec.zero_xor
  calc crcShifts 8 x
      = crcShifts 8 ((x >>> 8 <<< 8) ^^^ (byteOperand x).setWidth 32) := congrArg (crcShifts 8) (word_eq_high_xor_low x)
    _ = (x >>> 8) ^^^ crcTable (byteOperand x) := by
      rw [crcShifts_xor, crcShifts_of_low_clear hclear, hhigh, htable]

/-- Settles O47: the fed byte stands below bit 8, so the shift drops it. -/
theorem tableFormAgrees : Obligations.TableFormAgrees := by
  intro c b
  have hhigh : (c ^^^ b.setWidth 32) >>> 8 = c >>> 8 := by
    ext i hi
    simp
  have hlow (x : Word) : byteOperand (x &&& 0x000000FF) = byteOperand x :=
    usedArg_byte_eq_iff.mp (by rw [usedArg, usedArg, BitVec.and_assoc, BitVec.and_self])
  rw [crcStep8ByTable, hlow, crcStep8, crcShifts_eight, hhigh]

/-! No remainder is lost. -/

/-- The polynomial has bit 31 set, so bit 31 of the result is the bit that fell out. -/
theorem crcShift_getLsbD_31 (c : Word) : (crcShift c).getLsbD 31 = c.getLsbD 0 := by
  rw [crcShift_eq]
  cases c.getLsbD 0 <;> simp [polyReflected]

theorem crcShift_injective : Function.Injective crcShift := by
  intro x y h
  have hlow : x.getLsbD 0 = y.getLsbD 0 := by rw [← crcShift_getLsbD_31, h, crcShift_getLsbD_31]
  have hhigh : x >>> 1 = y >>> 1 := by
    rwa [crcShift_eq, crcShift_eq, hlow, BitVec.xor_left_inj] at h
  apply BitVec.eq_of_getLsbD_eq
  rintro (_ | i) hi
  · exact hlow
  · have hbit := congrArg (BitVec.getLsbD · i) hhigh
    simpa [Nat.add_comm] using hbit

theorem crcShifts_injective (n : Nat) : Function.Injective (crcShifts n) := by
  rw [show crcShifts n = crcShift^[n] from funext (crcShifts_eq_iterate n)]
  exact crcShift_injective.iterate n

theorem crcStep8_left_injective (b : Byte) : Function.Injective (crcStep8 · b) :=
  (crcShifts_injective 8).comp fun _ _ => (BitVec.xor_left_inj _).mp

theorem crcStep8_right_injective (c : Word) : Function.Injective (crcStep8 c) := by
  refine (crcShifts_injective 8).comp fun x y h => ?_
  rw [← byteOperand_setWidth x, (BitVec.xor_right_inj c).mp h, byteOperand_setWidth]

theorem crcUpdate_injective (m : List Byte) : Function.Injective (crcUpdate · m) := by
  induction m with
  | nil => exact Function.injective_id
  | cons b bs ih => exact ih.comp (crcStep8_left_injective b)

theorem finalize_injective : Function.Injective finalize := fun _ _ => (BitVec.xor_left_inj _).mp

/-- Two sequences that differ in one byte, in whatever bits. -/
theorem crc32_ne_of_byte_ne (a b : List Byte) {x y : Byte} (h : x ≠ y) : crc32 (a ++ x :: b) ≠ crc32 (a ++ y :: b) := by
  intro heq
  have hupdate := finalize_injective heq
  rw [crcUpdate_append, crcUpdate_append] at hupdate
  exact h (crcStep8_right_injective _ (crcUpdate_injective b hupdate))

theorem xor_bit_ne (x : Byte) {k : Nat} (hk : k < 8) : x ≠ x ^^^ (1#8 <<< k) := by
  intro h
  have hbit := congrArg (BitVec.getLsbD · k) h
  simp [hk] at hbit

/-- Settles O49: a flipped bit makes another byte, and the loop maps different bytes to different remainders. -/
theorem singleBitChangesCrc : Obligations.SingleBitChangesCrc :=
  fun a b x _ hk => crc32_ne_of_byte_ne a b (xor_bit_ne x hk)

end Sys2Proof.Machine
end

section
/-! The normal form (spec/41_crc.md R104, form 2): it is the reflected loop with every word's bits in reverse order. -/

namespace Sys2Proof.Machine

theorem reverse_xor {w : Nat} (x y : BitVec w) : (x ^^^ y).reverse = x.reverse ^^^ y.reverse := by
  ext i hi
  simp [BitVec.getElem_reverse]

theorem reverse_ushiftRight {w : Nat} (x : BitVec w) (n : Nat) : (x >>> n).reverse = x.reverse <<< n := by
  ext i hi
  by_cases h : i < n <;> simp [BitVec.getElem_reverse, BitVec.getMsbD_ushiftRight, h, hi]

theorem reverse_allOnes (w : Nat) : (BitVec.allOnes w).reverse = BitVec.allOnes w := by
  ext i hi
  have hlt : w - 1 - i < w := by omega
  simp [BitVec.getElem_reverse, BitVec.getMsbD, hi, hlt]

/-- The bit that falls out at the top is the one that falls out at the bottom of the reverse, and the two polynomials are each
other's reverse. -/
theorem normalShift_reverse (c : Word) : normalShift c.reverse = (crcShift c).reverse := by
  have hbit : c.reverse.getLsbD 31 = c.getLsbD 0 := BitVec.getLsbD_reverse
  have hpoly : polyReflected.reverse = polyNormal := by
    ext i hi
    have hbits : ∀ j : Fin 32, polyReflected.getMsbD j = polyNormal.getLsbD j := by decide
    exact (BitVec.getElem_reverse _ hi).trans (hbits ⟨i, hi⟩)
  unfold normalShift crcShift
  rw [hbit, ← reverse_ushiftRight, ← hpoly, ← reverse_xor]
  exact (apply_ite BitVec.reverse _ _ _).symm

theorem normalShifts_reverse (n : Nat) (c : Word) : normalShifts n c.reverse = (crcShifts n c).reverse := by
  induction n generalizing c with
  | zero => rfl
  | succ n ih => rw [normalShifts, normalShift_reverse, ih, crcShifts]

/-- A reversed byte at the top of the word is the byte at the bottom, the word reversed. -/
theorem reverse_setWidth_shiftLeft (b : Byte) : b.reverse.setWidth 32 <<< 24 = (b.setWidth 32).reverse := by
  ext i hi
  by_cases h : i < 24
  · simp [BitVec.getElem_reverse, BitVec.getMsbD_setWidth, h]
  · simp [BitVec.getElem_reverse, BitVec.getLsbD_reverse, BitVec.getMsbD_setWidth, h, Nat.le_of_not_lt h]

theorem normalStep8_reverse (c : Word) (b : Byte) : normalStep8 c.reverse b = (crcStep8 c b).reverse := by
  rw [normalStep8, reverse_setWidth_shiftLeft, ← reverse_xor, normalShifts_reverse, crcStep8]

theorem normalUpdate_reverse (c : Word) (m : List Byte) : normalUpdate c.reverse m = (crcUpdate c m).reverse := by
  induction m generalizing c with
  | nil => rfl
  | cons b bs ih => rw [normalUpdate, normalStep8_reverse, ih, crcUpdate]

/-- Settles O48: all ones, which both forms start from, is its own reverse. -/
theorem normalFormAgrees : Obligations.NormalFormAgrees := by
  intro m
  have hinitial : crcInitial.reverse = crcInitial := reverse_allOnes 32
  have hupdate : normalUpdate crcInitial m = (crcUpdate crcInitial m).reverse := by
    rw [← normalUpdate_reverse, hinitial]
  calc crc32Normal m = finalize (normalUpdate crcInitial m).reverse := rfl
    _ = crc32 m := by rw [hupdate, BitVec.reverse_reverse_eq, crc32]

end Sys2Proof.Machine
end

section
/-! Programs that start a CRC, feed bytes and end with one command (spec/41_crc.md R112, R114): what that last command finds in
`CRC_STATE`, and what it answers. -/

namespace Sys2Proof.Machine

/-- A command that writes `v` to `CRC_STATE`, then any feeds of `m`: the last command meets the remainder of `m` from `v`. -/
theorem runProgram_start_feeds_last {i : Instr} {fs : List Instr} {m : List Byte} {v : Word} (s : State) (last : Instr)
    (hstart : (effect s.crcState s.typeReg (.ok i)).crcState = some v) (h : Feeds fs m) :
    ∃ q, q.crcState = crcUpdate v m ∧
      runProgram ((i :: fs ++ [last]).map encode) s = .next (afterTransaction (encode last) q) := by
  have hcrc : (afterTransaction (encode i) s).crcState = v := by
    simp only [afterTransaction, Effect.applyTo_crcState, record_crcState, decode_encode, hstart,
      Option.getD_some]
  obtain ⟨q, hrun, hq, -⟩ := runProgram_of_feeds h (afterTransaction (encode i) s)
  refine ⟨q, by rw [hq, hcrc], ?_⟩
  have hfirst : runProgram ((i :: fs).map encode) s = .next q := by
    rw [List.map_cons, runProgram, transact_eq_afterTransaction]
    exact hrun
  rw [List.map_append]
  exact runProgram_concat hfirst (transact_eq_afterTransaction (encode last) q)

theorem afterTransaction_encode_last_response (i : Instr) (s : State) :
    (afterTransaction (encode i) s).taken.getLast? =
      some ((effect s.crcState s.typeReg (.ok i)).answer s.status) := by
  rw [afterTransaction, decode_encode, List.getLast?_concat]

theorem afterTransaction_encode_status (i : Instr) (s : State) :
    (afterTransaction (encode i) s).status = (effect s.crcState s.typeReg (.ok i)).statusAfter s.status := by
  rw [afterTransaction, decode_encode]
  rfl

/-- CHUNK_BEGIN has fed the type bytes, so the last command finds the remainder of the type and the payload (R114). -/
theorem runProgram_chunk {fs : List Instr} {p : List Byte} (s : State) (t : Word) (last : Instr) (h : Feeds fs p) :
    ∃ q, finalize q.crcState = crc32 (streamBytes t ++ p) ∧
      runProgram ((Instr.chunkBegin t :: fs ++ [last]).map encode) s = .next (afterTransaction (encode last) q) := by
  obtain ⟨q, hq, hrun⟩ := runProgram_start_feeds_last (i := .chunkBegin t) s last rfl h
  refine ⟨q, ?_, hrun⟩
  rw [hq, crc32, crcUpdate_append, crcFeedWord]

/-- Settles O50: CRC_READ and CRC_CHECK answer from the remainder they find. -/
theorem chunkCrcProcedure : Obligations.ChunkCrcProcedure := by
  intro s t p fs h
  refine ⟨?_, fun c => ?_⟩
  · obtain ⟨q, hq, hrun⟩ := runProgram_chunk s t .crcRead h
    refine ⟨_, hrun, ?_⟩
    rw [afterTransaction_encode_last_response, ← hq]
    rfl
  · obtain ⟨q, hq, hrun⟩ := runProgram_chunk s t (.crcCheck c) h
    refine ⟨_, hrun, ?_⟩
    rw [afterTransaction_encode_last_response, ← hq]
    rfl

/-- Settles O51: by R105 the flipped chunk has another CRC than the one it is checked against. -/
theorem oneFlippedBitIsCaught : Obligations.OneFlippedBitIsCaught := by
  intro s t t' p p' fs a b x k hk horiginal hflipped h
  have hne : crc32 (streamBytes t ++ p) ≠ crc32 (streamBytes t' ++ p') := by
    rw [horiginal, hflipped]
    exact singleBitChangesCrc a b x k hk
  obtain ⟨q, hq, hrun⟩ := runProgram_chunk s t' (.crcCheck (crc32 (streamBytes t ++ p))) h
  rw [← hq] at hne
  refine ⟨_, hrun, ?_, ?_⟩
  · rw [afterTransaction_encode_status]
    simp [effect, checkAnswer, Effect.statusAfter, hne]
  · rw [afterTransaction_encode_last_response, ← hq]
    simp [effect, checkAnswer, Effect.answer, hne]

end Sys2Proof.Machine
end

section
/-! The commands of the CRC generator (spec/41_crc.md R106 to R113): one equation each, and what the reading ones answer after
the ones that start a CRC. -/

namespace Sys2Proof.Machine

section
variable (b : Byte) (w v t : Word) (s : State)

theorem exec_crcInit : exec .crcInit s = .next { s with crcState := crcInitial, port := .response ⟨.ok, 0⟩ } := rfl

theorem exec_crcByte :
    exec (.crcByte b) s = .next { s with crcState := crcStep8 s.crcState b, port := .response ⟨.ok, 0⟩ } := rfl

theorem exec_crcWord :
    exec (.crcWord w) s = .next { s with crcState := crcFeedWord s.crcState w, port := .response ⟨.ok, 0⟩ } := rfl

theorem exec_crcRead : exec .crcRead s = .next { s with port := .response ⟨.ok, finalize s.crcState⟩ } := rfl

theorem exec_crcCheck :
    exec (.crcCheck v) s = .next
      (if v = finalize s.crcState then { s with port := .response ⟨.ok, finalize s.crcState⟩ }
       else { s with
          status := { s.status with crcErr := true }
          port := .response ⟨.error .crcMismatch, finalize s.crcState⟩ }) := rfl

theorem exec_crcGetraw : exec .crcGetraw s = .next { s with port := .response ⟨.ok, s.crcState⟩ } := rfl

theorem exec_crcSetraw :
    exec (.crcSetraw v) s = .next { s with crcState := v, port := .response ⟨.ok, 0⟩ } := rfl

theorem exec_chunkBegin :
    exec (.chunkBegin t) s = .next
      { s with
        typeReg := t
        crcState := crcFeedWord crcInitial t
        status := if letters t then s.status else { s.status with typeErr := true }
        port := .response ⟨if letters t then .ok else .error .invalidChunkType, tflags t⟩ } :=
  congrArg _ (answerType_eq t (writeCrc (crcFeedWord crcInitial t) (writeType t s)))

end

/-! The values of the rules' examples; `simp` runs the loop on them turn by turn. -/

theorem finalize_crcInitial : finalize crcInitial = 0 := by decide

theorem crcFeedWord_all_ones : crcFeedWord crcInitial 0xFFFFFFFF = 0x00000000 := by
  simp [crcFeedWord_eq, crcStep8, crcShifts, crcShift, crcInitial]

theorem crcFeedWord_zeros : crcFeedWord crcInitial 0x00000000 = 0xDEBB20E3 := by
  simp [crcFeedWord_eq, crcStep8, crcShifts, crcShift, crcInitial, polyReflected]

theorem crcFeedWord_IEND : crcFeedWord crcInitial 0x49454E44 = 0x51BD9F7D := by
  simp [crcFeedWord_eq, crcStep8, crcShifts, crcShift, crcInitial, polyReflected]

theorem finalize_IEND : finalize 0x51BD9F7D = 0xAE426082 := by decide

theorem crcFeedWord_teSt : crcFeedWord crcInitial 0x74655374 = 0xB204A551 := by
  simp [crcFeedWord_eq, crcStep8, crcShifts, crcShift, crcInitial, polyReflected]

/-- "hello" after "RuST". -/
theorem crcUpdate_hello : crcUpdate 0x1015D60B [0x68, 0x65, 0x6C, 0x6C, 0x6F] = 0xD4F2F505 := by
  simp [crcUpdate, crcStep8, crcShifts, crcShift, polyReflected]

section
variable {s t : State}

theorem crcState_of_crcInit (h : exec .crcInit s = .next t) : t.crcState = crcInitial := by
  rw [exec_crcInit, Host.Outcome.next.injEq] at h
  rw [← h]

theorem crcState_of_chunkBegin_IEND (h : exec (.chunkBegin 0x49454E44) s = .next t) : t.crcState = 0x51BD9F7D := by
  rw [exec_chunkBegin, Host.Outcome.next.injEq] at h
  rw [← h, crcFeedWord_IEND]

/-- Nothing fed yet: the CRC of the empty sequence. -/
theorem exec_crcRead_after_crcInit (h : exec .crcInit s = .next t) :
    exec .crcRead t = .next { t with port := .response ⟨.ok, 0⟩ } := by
  rw [exec_crcRead, crcState_of_crcInit h, finalize_crcInitial]

end

/-- Settles O29: CRC_READ then finalizes all ones. -/
theorem crcInitStartsANewCrc : Obligations.CrcInitStartsANewCrc :=
  ⟨fun _ => decode_of_op 0x01 rfl rfl, exec_crcInit, fun _ _ h => ⟨crcState_of_crcInit h, exec_crcRead_after_crcInit h⟩⟩

/-- Settles O30: the two examples are one byte each from all ones. -/
theorem crcByteFeedsOneByte : Obligations.CrcByteFeedsOneByte := by
  refine ⟨fun _ => decode_of_op 0x02 rfl rfl, exec_crcByte, fun s hs => ?_, by decide⟩
  have hzero : crcStep8 0xFFFFFFFF 0x00 = 0x2DFD1072 := by decide
  have hI : crcStep8 0xFFFFFFFF 0x49 = 0x22FDE946 := by decide
  rw [exec_crcByte, exec_crcByte, hs, hzero, hI]
  exact ⟨rfl, rfl⟩

/-- Settles O31: each CRC_BYTE leaves the remainder the next one starts from. -/
theorem crcWordFeedsFourBytes : Obligations.CrcWordFeedsFourBytes := by
  refine ⟨fun _ => decode_of_op 0x03 rfl rfl, exec_crcWord, fun w s t1 t2 t3 h1 h2 h3 => ?_,
    fun s hs => ?_⟩
  · rw [exec_crcByte, Host.Outcome.next.injEq] at h1 h2 h3
    subst h1 h2 h3
    rfl
  · have hinitial : s.crcState = crcInitial := hs
    rw [exec_crcWord, exec_crcWord, exec_crcWord, hinitial, crcFeedWord_all_ones, crcFeedWord_zeros, crcFeedWord_IEND]
    exact ⟨rfl, rfl, rfl⟩

/-- Settles O32: CRC_READ writes no register, so the next one reads the same remainder. -/
theorem crcReadGivesFinalizedCrc : Obligations.CrcReadGivesFinalizedCrc := by
  refine ⟨fun _ => decode_of_op 0x04 rfl rfl, exec_crcRead, fun s t h => ?_, fun _ _ => exec_crcRead_after_crcInit, ?_,
    fun s t h => ?_⟩
  · rw [exec_crcRead, Host.Outcome.next.injEq] at h
    subst h
    rfl
  · have hreset : finalize State.reset.crcState = 0 := finalize_crcInitial
    rw [exec_crcRead, hreset]
  · rw [exec_crcRead, crcState_of_chunkBegin_IEND h, finalize_IEND]

/-- Settles O33: the examples are the equation at the remainder CRC_INIT or CHUNK_BEGIN leaves. -/
theorem crcCheckComparesAllBits : Obligations.CrcCheckComparesAllBits := by
  refine ⟨fun _ => decode_of_op 0x05 rfl rfl, exec_crcCheck, fun s t h => ?_, fun s t h => ⟨?_, ?_⟩⟩
  · rw [exec_crcCheck, crcState_of_crcInit h, finalize_crcInitial, if_pos rfl]
  · rw [exec_crcCheck, crcState_of_chunkBegin_IEND h, finalize_IEND, if_pos rfl]
  · rw [exec_crcCheck, crcState_of_chunkBegin_IEND h, finalize_IEND, if_neg (by decide)]

/-- Settles O34: CRC_READ answers the remainder XOR all ones. -/
theorem crcGetrawGivesRemainder : Obligations.CrcGetrawGivesRemainder := by
  refine ⟨fun _ => decode_of_op 0x06 rfl rfl, exec_crcGetraw, fun s t u r q ht hu hr hq => ?_, exec_crcGetraw State.reset,
    fun s t h => ?_⟩
  · rw [exec_crcGetraw, Host.Outcome.next.injEq] at ht
    rw [exec_crcRead, Host.Outcome.next.injEq] at hu
    subst ht hu
    cases hr
    cases hq
    calc s.crcState ^^^ (s.crcState ^^^ crcFinalXor)
        = (s.crcState ^^^ s.crcState) ^^^ crcFinalXor := (BitVec.xor_assoc _ _ _).symm
      _ = 0xFFFFFFFF := by rw [BitVec.xor_self, BitVec.zero_xor, crcFinalXor]
  · rw [exec_crcGetraw, crcState_of_chunkBegin_IEND h]

/-- Settles O35: the example is a run that starts at the value restored and feeds the five bytes. -/
theorem crcSetrawRestoresRemainder : Obligations.CrcSetrawRestoresRemainder := by
  refine ⟨fun _ => decode_of_op 0x07 rfl rfl, exec_crcSetraw, exec_crcInit, fun s t u r ht hr => ?_,
    fun s => ?_⟩
  · rw [exec_crcGetraw, Host.Outcome.next.injEq] at ht
    subst ht
    cases hr
    exact ⟨_, exec_crcSetraw s.crcState u, rfl, rfl⟩
  · have hcrc : finalize 0xD4F2F505 = 0x2B0D0AFA := by decide
    obtain ⟨q, hq, hrun⟩ := runProgram_start_feeds_last (i := .crcSetraw 0x1015D60B) s .crcRead rfl
      (crcBytes_feeds [0x68, 0x65, 0x6C, 0x6C, 0x6F]).1
    refine ⟨_, hrun, ?_⟩
    rw [afterTransaction_encode_last_response, ← hcrc, ← crcUpdate_hello, ← hq]
    rfl

/-- Settles O36: the example's type has four letters, so it takes the arm without an error. -/
theorem chunkBeginLoadsTypeAndStartsCrc : Obligations.ChunkBeginLoadsTypeAndStartsCrc := by
  refine ⟨fun _ => decode_of_op 0x08 rfl rfl, exec_chunkBegin, fun s => ?_⟩
  have hletters : letters 0x74655374 = true := by decide
  have hflags : tflags 0x74655374 = 0x00000F39 := by decide
  rw [exec_chunkBegin, hletters, crcFeedWord_teSt, hflags]
  rfl

/-- Settles O37: TYPE_LOAD writes the type and the sticky bit, CRC_INIT and CRC_WORD the remainder, as CHUNK_BEGIN does. -/
theorem chunkBeginIsThreeCommands : Obligations.ChunkBeginIsThreeCommands := by
  intro t s a u v w ha hu hv hw
  rw [exec_chunkBegin, Host.Outcome.next.injEq] at ha
  rw [exec_typeLoad, Host.Outcome.next.injEq] at hu
  rw [exec_crcInit, Host.Outcome.next.injEq] at hv
  rw [exec_crcWord, Host.Outcome.next.injEq] at hw
  subst ha hu hv hw
  exact ⟨rfl, rfl, rfl⟩

end Sys2Proof.Machine
end

section
/-! The control commands and the illegal-command arm (spec/42_control.md R125 to R129): one equation each, and the bits of the
status word they answer (10_state.md R24). -/

namespace Sys2Proof.Machine

section
variable (s : State)

theorem exec_nop : exec .nop s = .next { s with port := .response ⟨.ok, 0⟩ } := rfl

theorem exec_statRead : exec .statRead s = .next { s with port := .response ⟨.ok, statusWord s.status⟩ } := rfl

theorem exec_statClear :
    exec .statClear s = .next { s with status := Status.clear, port := .response ⟨.ok, statusWord s.status⟩ } := rfl

end

/-- R24: the sticky bit that each bit of the status word holds. -/
def statusBitAt (st : Status) : Nat → Bool
  | 0 => st.crcErr
  | 1 => st.typeErr
  | 2 => st.cmdErr
  | _ => false

/-- The three sticky bits stand at three different places, so no bit mixes two of them. -/
theorem statusWord_getLsbD (st : Status) (k : Nat) : (statusWord st).getLsbD k = statusBitAt st k := by
  simp only [statusWord, BitVec.getLsbD_or, flagBit_getLsbD, Nat.reduceLT]
  match k with
  | 0 | 1 | 2 | j + 3 => simp [statusBitAt]

theorem statusWord_getLsbD_of_ge (st : Status) (k : Nat) (hk : 3 ≤ k) : (statusWord st).getLsbD k = false := by
  obtain ⟨j, rfl⟩ := Nat.exists_eq_add_of_le' hk
  exact statusWord_getLsbD st (j + 3)

theorem statusWord_clear : statusWord Status.clear = 0 := by decide

/-- A command word that fails a condition of R64 is illegal whatever `arg` is. -/
theorem illegal_of_cmd {cmd : Word} (h : ¬ (mbzField cmd = 0 ∧ opField cmd ∈ assignedOps)) (arg : Word) :
    ¬ ∃ i, decode ⟨cmd, arg⟩ = .ok i :=
  exists_decode_iff.not.mpr h

/-- Settles O8: an illegal word is performed by the arm alone, so its transaction is one record and one response taken. The
first example has an opcode that is not assigned, the second a must-be-zero field that is 1. -/
theorem illegalCommandArmWritesOnlyCmdErr : Obligations.IllegalCommandArmWritesOnlyCmdErr := by
  refine ⟨fun c s h => ?_, fun arg => ⟨illegal_of_cmd (by decide) arg, illegal_of_cmd (by decide) arg⟩⟩
  have hperform (s : State) := (perform_of_illegal h s).trans (illegalCommandArm_eq s)
  refine ⟨hperform s, _, transact_of_perform (hperform (record c s)) rfl, ?_, rfl⟩
  rw [record_performed, List.length_append, List.length_singleton]

/-- Settles O26: the must-be-zero field of the last word is 1. -/
theorem nopDoesNothing : Obligations.NopDoesNothing :=
  ⟨fun _ => decode_of_op 0x00 rfl rfl, exec_nop, illegal_of_cmd (by decide)⟩

/-- Settles O27: the answer is the status word, which R24 gives bit by bit. -/
theorem statReadGivesStatus : Obligations.StatReadGivesStatus := by
  refine ⟨fun _ => decode_of_op 0x20 rfl rfl, fun s => ⟨statusWord s.status, exec_statRead s,
    statusWord_getLsbD s.status 0, statusWord_getLsbD s.status 1, statusWord_getLsbD s.status 2,
    statusWord_getLsbD_of_ge s.status, fun h => ?_⟩, ?_⟩
  · rw [h]
    decide
  · have hreset : statusWord State.reset.status = 0 := statusWord_clear
    rw [exec_statRead, hreset]

/-- Settles O28: the answer is the status word before the clear, so a second one finds no bit set. -/
theorem statClearReadsAndClears : Obligations.StatClearReadsAndClears := by
  refine ⟨fun _ => decode_of_op 0x21 rfl rfl, fun s => ⟨statusWord s.status, _, exec_statClear s, rfl,
    statusWord_getLsbD s.status 0, statusWord_getLsbD s.status 1, statusWord_getLsbD s.status 2,
    statusWord_getLsbD_of_ge s.status, ?_, fun h => ?_⟩⟩
  · rw [exec_statClear, statusWord_clear]
  · rw [h]
    decide

end Sys2Proof.Machine
end

section
/-! No command and no error stops the machine (spec/60_exceptions.md R152): every edge has a next state, and from every phase
of the port a few edges lead to readiness. -/

namespace Sys2Proof.Machine

theorem clockEdge_of_inReset {e : Edge} {s : State} (hrst : e.rst = false) (hport : s.port = .inReset) :
    clockEdge e s = .next (release s) := by
  simp [clockEdge, hrst, hport]

theorem exists_clockEdge_eq_next (e : Edge) (s : State) : ∃ t, clockEdge e s = .next t := by
  cases hrst : e.rst with
  | true => exact ⟨resetEdge s, by rw [clockEdge, if_pos hrst]⟩
  | false =>
    cases hport : s.port with
    | inReset => exact ⟨_, clockEdge_of_inReset hrst hport⟩
    | ready => exact ⟨_, clockEdge_of_ready hrst hport⟩
    | inFlight c =>
      rw [clockEdge_of_inFlight hrst hport, perform_eq_applyTo]
      split <;> exact ⟨_, rfl⟩
    | response r => exact ⟨_, clockEdge_of_response hrst hport⟩

theorem cmdReady_of_ready {s : State} (h : s.port = .ready) : cmdReady false s = true := by
  rw [cmdReady, h]
  rfl

/-- The edges that make a CIU ready without reset: the end of a reset, the completion of a command, the taking of a
response. -/
def edgesToReady : Port → List Edge
  | .inReset => [idleEdge]
  | .ready => []
  | .inFlight _ => [idleEdge, takeEdge]
  | .response _ => [takeEdge]

theorem edgesToReady_rst (p : Port) : ∀ e ∈ edgesToReady p, e.rst = false := by
  cases p <;> simp [edgesToReady, idleEdge, takeEdge]

theorem stepN_edgesToReady {s : State} (h : s.inputs = edgesToReady s.port) :
    ∃ t, stepN (edgesToReady s.port).length s = .next t ∧ t.port = .ready := by
  cases hport : s.port with
  | inReset =>
    rw [hport] at h
    exact ⟨_, stepN_of_clockEdge h (clockEdge_of_inReset rfl hport) 0, rfl⟩
  | ready => exact ⟨s, rfl, hport⟩
  | inFlight c =>
    rw [hport] at h
    refine ⟨_, (stepN_until_performed (es := []) hport h nofun rfl rfl (perform_eq_applyTo _ _) 1).trans
      (stepN_until_taken (es := []) rfl rfl nofun rfl rfl 0), rfl⟩
  | response r =>
    rw [hport] at h
    exact ⟨_, stepN_until_taken (es := []) hport h nofun rfl rfl 0, rfl⟩

/-- Settles O21: a transaction ends with the port ready, and the edges to readiness are those of the phase the port is in. -/
theorem noErrorStopsTheMachine : Obligations.NoErrorStopsTheMachine := by
  refine ⟨fun s => exists_clockEdge_eq_next (nextEdge s) (popEdge s),
    fun c s => ⟨_, transact_eq_afterTransaction c s, cmdReady_of_ready rfl⟩, fun s => ?_⟩
  obtain ⟨t, hrun, hport⟩ := stepN_edgesToReady (s := { s with inputs := edgesToReady s.port }) rfl
  exact ⟨edgesToReady s.port, t, edgesToReady_rst s.port, hrun, cmdReady_of_ready hport⟩

end Sys2Proof.Machine
end

section
/-! The three errors (spec/60_exceptions.md R135 to R138, R142): the cause of each, and what is written beside it. -/

namespace Sys2Proof

theorem decode_eq_error_iff {c : Command} :
    (∃ e, decode c = .error e) ↔ Machine.mbzField c.cmd ≠ 0 ∨ Machine.opField c.cmd ∉ Machine.assignedOps := by
  rw [← not_and_or, ← exists_decode_iff]
  cases decode c <;> simp

/-- A type operand is the whole of `arg` (R63). -/
theorem typeOperand_of_decode {c : Command} {w : Word}
    (h : decode c = .ok (.typeLoad w) ∨ decode c = .ok (.chunkBegin w)) : w = c.arg := by
  obtain h | h := h
  · exact (Machine.decodeAndEncodeAgree.2 c _ h).2
  · exact (Machine.decodeAndEncodeAgree.2 c _ h).2

end Sys2Proof

namespace Sys2Proof.Machine

/-- The cause of each error: what the command decoded to, and the remainder it met. -/
def ErrorCause (crc : Word) (d : Except DecodeError Instr) : ErrorKind → Prop
  | .illegalCommand => ∃ e, d = .error e
  | .invalidChunkType => ∃ w, (d = .ok (.typeLoad w) ∨ d = .ok (.chunkBegin w)) ∧ letters w = false
  | .crcMismatch => ∃ v, d = .ok (.crcCheck v) ∧ v ≠ finalize crc

theorem typeAnswer_code_eq_error_iff {t : Word} {k : ErrorKind} :
    (typeAnswer t).code = .error k ↔ letters t = false ∧ k = .invalidChunkType := by
  cases h : letters t <;> simp [typeAnswer, h, eq_comm]

theorem checkAnswer_code_eq_error_iff {v computed : Word} {k : ErrorKind} :
    (checkAnswer v computed).code = .error k ↔ v ≠ computed ∧ k = .crcMismatch := by
  by_cases h : v = computed <;> simp [checkAnswer, h, eq_comm]

theorem typeAnswer_of_not_letters {t : Word} (h : letters t = false) :
    typeAnswer t = { typeErr := some true, code := .error .invalidChunkType, data := some (tflags t) } := by
  simp [typeAnswer, h]

theorem checkAnswer_of_ne {v computed : Word} (h : v ≠ computed) :
    checkAnswer v computed = { crcErr := some true, code := .error .crcMismatch, data := some computed } := by
  simp [checkAnswer, h]

theorem typeAnswer_statusAfter_of_ok {t : Word} (h : (typeAnswer t).code = .ok) (st : Status) :
    (typeAnswer t).statusAfter st = st := by
  cases hletters : letters t with
  | true => simp [typeAnswer, Effect.statusAfter, hletters]
  | false => simp [typeAnswer_of_not_letters hletters] at h

theorem checkAnswer_statusAfter_of_ok {v computed : Word} (h : (checkAnswer v computed).code = .ok) (st : Status) :
    (checkAnswer v computed).statusAfter st = st := by
  by_cases heq : v = computed
  · simp [checkAnswer, Effect.statusAfter, heq]
  · simp [checkAnswer_of_ne heq] at h

section
variable {crc type : Word} {d : Except DecodeError Instr}

/-- An answer has one code, so a command raises at most the one error whose cause it meets (R142). -/
theorem effect_code_eq_error_iff (k : ErrorKind) :
    (effect crc type d).code = .error k ↔ ErrorCause crc d k := by
  cases d with
  | error e => cases k <;> simp [effect, ErrorCause]
  | ok i => cases i with
    | crcCheck v =>
      refine checkAnswer_code_eq_error_iff.trans ?_
      cases k <;> simp [ErrorCause]
    | typeLoad t | chunkBegin t =>
      refine typeAnswer_code_eq_error_iff.trans ?_
      cases k <;> simp [ErrorCause]
    | _ => cases k <;> simp [effect, ErrorCause]

theorem effect_statusAfter_of_ok (hcode : (effect crc type d).code = .ok) (hclear : d ≠ .ok .statClear) (st : Status) :
    (effect crc type d).statusAfter st = st := by
  cases d with
  | error e => cases hcode
  | ok i => cases i with
    | crcCheck v => exact checkAnswer_statusAfter_of_ok hcode st
    | typeLoad t | chunkBegin t => exact typeAnswer_statusAfter_of_ok hcode st
    | statClear => exact absurd rfl hclear
    | _ => rfl

end

section
variable {c : Command} {s : State}

/-- R136: nothing but the bit and the answer. -/
theorem applyTo_of_illegalCommand (h : ErrorCause s.crcState (decode c) .illegalCommand) :
    (effect s.crcState s.typeReg (decode c)).applyTo s =
      { s with status := { s.status with cmdErr := true }, port := .response ⟨.error .illegalCommand, 0⟩ } := by
  obtain ⟨e, hd⟩ := h
  rw [hd]
  rfl

/-- R137: the type is written although a byte of it is no letter. -/
theorem applyTo_of_invalidChunkType (h : ErrorCause s.crcState (decode c) .invalidChunkType) :
    ∃ crc, (effect s.crcState s.typeReg (decode c)).applyTo s =
      { s with
        crcState := crc
        typeReg := c.arg
        status := { s.status with typeErr := true }
        port := .response ⟨.error .invalidChunkType, tflags c.arg⟩ } := by
  obtain ⟨w, hd, hletters⟩ := h
  obtain rfl := typeOperand_of_decode hd
  obtain hd | hd := hd
  · exact ⟨s.crcState, by rw [hd, effect, typeAnswer_of_not_letters hletters]; rfl⟩
  · exact ⟨crcFeedWord crcInitial c.arg, by rw [hd, effect, typeAnswer_of_not_letters hletters]; rfl⟩

/-- R138: nothing but the bit and the answer. -/
theorem applyTo_of_crcMismatch (h : ErrorCause s.crcState (decode c) .crcMismatch) :
    (effect s.crcState s.typeReg (decode c)).applyTo s =
      { s with
        status := { s.status with crcErr := true }
        port := .response ⟨.error .crcMismatch, finalize s.crcState⟩ } := by
  obtain ⟨v, hd, hne⟩ := h
  rw [hd, effect, checkAnswer_of_ne hne]
  rfl

end

theorem Effect.answer_of_applyTo {e : Effect} {s t : State} {r : Response} (h : e.applyTo s = t)
    (hr : t.port = .response r) : e.answer s.status = r := by
  rw [← h, Effect.applyTo_port, Port.response.injEq] at hr
  exact hr

/-- Settles O22: the code says which cause is met, and each cause says what the command writes and answers. -/
theorem oneErrorAtMostPerCommand : Obligations.OneErrorAtMostPerCommand := by
  refine ⟨⟨rfl, rfl, rfl, rfl⟩, fun c s => ?_⟩
  have hcause := effect_code_eq_error_iff (crc := s.crcState) (type := s.typeReg) (d := decode c)
  refine ⟨_, _, perform_eq_applyTo c s, Effect.applyTo_port _ _, (hcause _).trans decode_eq_error_iff, fun hcode => ?_,
    hcause _, fun hcode => ?_, hcause _, fun hcode => ?_, fun hcode hclear => effect_statusAfter_of_ok hcode hclear _⟩
  · have happly := applyTo_of_illegalCommand ((hcause _).mp hcode)
    rw [happly, Effect.answer_of_applyTo happly rfl]
    exact ⟨rfl, rfl⟩
  · obtain ⟨crc, happly⟩ := applyTo_of_invalidChunkType ((hcause _).mp hcode)
    rw [happly, Effect.answer_of_applyTo happly rfl]
    exact ⟨rfl, rfl, rfl⟩
  · have happly := applyTo_of_crcMismatch ((hcause _).mp hcode)
    rw [happly, Effect.answer_of_applyTo happly rfl]
    exact ⟨rfl, rfl⟩

end Sys2Proof.Machine
end

section
/-! Saving, restoring and observing the registers (spec/60_exceptions.md R149, R150). -/

namespace Sys2Proof.Machine

/-- Settles O53: each answer is the register, and each restoring command writes its operand. -/
theorem saveAndRestore : Obligations.SaveAndRestore := fun s u =>
  ⟨_, _, _, _, s.crcState, s.typeReg, exec_crcGetraw s, rfl, exec_typeGet s, rfl, exec_crcSetraw s.crcState u,
    exec_typeLoad s.typeReg _, rfl, rfl⟩

/-- The three defined bits of the status word are all of `STATUS`. -/
theorem statusWord_injective : Function.Injective statusWord := by
  intro st st' h
  have hbit (k : Nat) : statusBitAt st k = statusBitAt st' k := by
    rw [← statusWord_getLsbD, h, statusWord_getLsbD]
  calc st = ⟨statusBitAt st 0, statusBitAt st 1, statusBitAt st 2⟩ := rfl
    _ = ⟨statusBitAt st' 0, statusBitAt st' 1, statusBitAt st' 2⟩ := by rw [hbit, hbit, hbit]
    _ = st' := rfl

/-- A command that gives the same response in two states gives the same data. -/
theorem data_eq_of_same_answer {i : Instr} {s u s' u' : State} {a b : Word} (hs : exec i s = .next s')
    (hu : exec i u = .next u') (ha : s'.port = .response ⟨.ok, a⟩) (hb : u'.port = .response ⟨.ok, b⟩)
    (h : ∃ t v, exec i s = .next t ∧ exec i u = .next v ∧ t.port = v.port) : a = b := by
  obtain ⟨t, v, ht, hv, hport⟩ := h
  cases hs.symm.trans ht
  cases hu.symm.trans hv
  cases ha.symm.trans (hport.trans hb)
  rfl

/-- Settles O54: each of the three answers is one register, `STATUS` as its word. -/
theorem wholeStateIsObservable : Obligations.WholeStateIsObservable := fun s u h =>
  ⟨data_eq_of_same_answer (exec_crcGetraw s) (exec_crcGetraw u) rfl rfl (h _ (by simp)),
    data_eq_of_same_answer (exec_typeGet s) (exec_typeGet u) rfl rfl (h _ (by simp)),
    statusWord_injective (data_eq_of_same_answer (exec_statRead s) (exec_statRead u) rfl rfl (h _ (by simp)))⟩

end Sys2Proof.Machine
end

section
/-! Reset (spec/70_reset_and_hazards.md R160, R162): what an edge with `rst` high leaves depends on the edges to come alone, and
the first edge with `rst` low makes the port ready. -/

namespace Sys2Proof.Machine

/-- Every field but the samples is put to a fixed value. -/
theorem resetEdge_eq (s : State) : resetEdge s = { State.reset with port := .inReset, inputs := s.inputs } := rfl

theorem clockEdge_of_rst {e : Edge} (h : e.rst = true) (s : State) :
    clockEdge e s = .next { State.reset with port := .inReset, inputs := s.inputs } := by
  rw [clockEdge, if_pos h, resetEdge_eq]

theorem step_of_rst {s : State} (h : (nextEdge s).rst = true) :
    step s = .next { State.reset with port := .inReset, inputs := s.inputs.tail } := by
  rw [step_eq, clockEdge_of_rst h, popEdge_inputs]

theorem step_of_inReset {s : State} (hrst : (nextEdge s).rst = false) (hport : s.port = .inReset) :
    step s = .next { s with port := .ready, inputs := s.inputs.tail } :=
  clockEdge_of_inReset (s := popEdge s) hrst hport

theorem cmdReady_eq_true_iff {rst : Bool} {s : State} : cmdReady rst s = true ↔ rst = false ∧ s.port = .ready := by
  unfold cmdReady
  cases s.port <;> simp

theorem cmdReady_of_port_ne_ready {s : State} (h : s.port ≠ .ready) (rst : Bool) : cmdReady rst s = false :=
  Bool.eq_false_iff.mpr fun hready => h (cmdReady_eq_true_iff.mp hready).2

theorem cmdReady_of_rst (s : State) : cmdReady true s = false :=
  Bool.eq_false_iff.mpr fun hready => Bool.noConfusion (cmdReady_eq_true_iff.mp hready).1

theorem rspValid_of_rst (s : State) : rspValid true s = false := rfl

/-- Settles O9: the edge with `rst` high leaves the registers of reset, and the edge that ends reset keeps them. -/
theorem resetEdgeSetsEveryRegister : Obligations.ResetEdgeSetsEveryRegister :=
  ⟨fun s hrst => ⟨_, step_of_rst hrst, rfl, rfl, rfl, cmdReady_of_port_ne_ready (by simp) false, fun hlow =>
    ⟨_, step_of_inReset hlow rfl, cmdReady_of_ready rfl, rfl, rfl, rfl⟩⟩, fun s => ⟨cmdReady_of_rst s, rspValid_of_rst s⟩⟩

/-- Settles O11: the second edge only makes the port ready, whatever the host presents at it. -/
theorem anyPowerUpStateResets : Obligations.AnyPowerUpStateResets := by
  intro s e f es hinputs he hf
  rw [stepN_of_clockEdge hinputs (clockEdge_of_rst he _), stepN_of_clockEdge rfl (clockEdge_of_inReset hf rfl)]
  rfl

/-- Settles O12: both states step to the one that their common samples determine. -/
theorem resetErasesWhatWasInFlight : Obligations.ResetErasesWhatWasInFlight := by
  intro s s' hinputs hrst
  have hedge : nextEdge s' = nextEdge s := by rw [nextEdge, nextEdge, hinputs]
  refine ⟨?_, _, step_of_rst hrst, rfl, rfl⟩
  rw [step_of_rst hrst, step_of_rst (hedge.symm ▸ hrst), hinputs]

end Sys2Proof.Machine
end

section
/-! The handshake of the command port (spec/70_reset_and_hazards.md R168 to R170): acceptance, completion after any latency, and
the response held until it is taken. -/

namespace Sys2Proof.Machine

/-- R170 rules out three phases of the port, and the fourth is left. -/
theorem port_eq_ready_iff {s : State} :
    s.port = .ready ↔ s.port ≠ .inReset ∧ (∀ c, s.port ≠ .inFlight c) ∧ waitingResponse s = none := by
  unfold waitingResponse
  cases s.port <;> simp

/-- A command performed leaves its response on the port. -/
theorem port_of_perform {c : Command} {s t : State} (h : perform c s = .next t) : ∃ r, t.port = .response r := by
  rw [perform_eq_applyTo, Host.Outcome.next.injEq] at h
  exact ⟨_, h ▸ Effect.applyTo_port _ s⟩

theorem rspOut_of_response {s : State} {r : Response} (h : s.port = .response r) : rspOut false s = some r :=
  waitingResponse_response s r h

theorem rspValid_of_response {s : State} {r : Response} (h : s.port = .response r) : rspValid false s = true := by
  rw [rspValid, rspOut_of_response h, Option.isSome_some]

theorem rspValid_of_ready {s : State} (h : s.port = .ready) : rspValid false s = false := by
  rw [rspValid, rspOut, if_neg Bool.false_ne_true, waitingResponse_ready s h, Option.isSome_none]

/-- A command in flight after an edge stayed there or was accepted at it: every other edge leaves another phase. -/
theorem clockEdge_port_inFlight {e : Edge} {s t : State} {c : Command} (h : clockEdge e s = .next t)
    (ht : t.port = .inFlight c) :
    s.port = .inFlight c ∨ (e.rst = false ∧ s.port = .ready ∧ e.cmdValid = true ∧ c = ⟨e.cmd, e.arg⟩) := by
  obtain ⟨-, rfl⟩ | ⟨-, -, rfl⟩ | ⟨-, -, -, rfl⟩ | ⟨hrst, hport, hvalid, rfl⟩ | ⟨d, -, -, -, rfl⟩ | ⟨d, -, -, -, hd⟩ |
    ⟨r, -, -, -, rfl⟩ | ⟨r, -, -, -, rfl⟩ := clockEdge_cases h
  case inr.inr.inr.inl =>
    rw [accept_port, Port.inFlight.injEq] at ht
    exact .inr ⟨hrst, hport, hvalid, ht.symm⟩
  case inr.inr.inl | inr.inr.inr.inr.inl | inr.inr.inr.inr.inr.inr.inl => exact .inl ht
  case inr.inr.inr.inr.inr.inl =>
    obtain ⟨r, hr⟩ := port_of_perform hd
    exact nomatch hr.symm.trans ht
  all_goals exact nomatch ht

/-- Settles O13: `cmd_ready` is the ready phase with `rst` low, and only an edge in that phase puts a command in flight. -/
theorem acceptanceOfCommands : Obligations.AcceptanceOfCommands := by
  refine ⟨fun rst s => ?_, fun s hready hvalid => ?_, fun s t c h ht => ?_⟩
  · rw [cmdReady_eq_true_iff, port_eq_ready_iff]
  · obtain ⟨hrst, hport⟩ := cmdReady_eq_true_iff.mp hready
    rw [step_eq, clockEdge_of_ready (s := popEdge s) hrst hport, if_pos hvalid]
    rfl
  · obtain hsame | ⟨hrst, hport, hvalid, hc⟩ := clockEdge_port_inFlight h ht
    · exact .inl hsame
    · exact .inr ⟨cmdReady_eq_true_iff.mpr ⟨hrst, hport⟩, hvalid, hc⟩

/-- Settles O14: an edge at which the response is not taken changes nothing, and the one at which it is makes the port ready. -/
theorem responseHeldUntilTaken : Obligations.ResponseHeldUntilTaken := by
  refine ⟨fun c s t h => ?_, fun s r es rest hport hinputs hes => ?_, fun s r hport hrst htake => ?_⟩
  · obtain ⟨r, hr⟩ := port_of_perform h
    exact ⟨r, hr, rspOut_of_response hr⟩
  · have hheld (f : Edge) (hf : f ∈ es) (x : List Edge) :
        clockEdge f { s with inputs := x } = .next { s with inputs := x } := by
      obtain ⟨hfrst, hftake⟩ := hes f hf
      rw [clockEdge_of_response (s := { s with inputs := x }) hfrst hport, hftake, if_neg Bool.false_ne_true]
    exact ⟨_, stepN_of_stays hinputs hheld 0, rspValid_of_response hport, rspOut_of_response hport,
      cmdReady_of_port_ne_ready (by simp [hport]) false, rfl⟩
  · refine ⟨_, ?_, rspValid_of_ready rfl, cmdReady_of_ready rfl, rfl⟩
    rw [step_eq, clockEdge_of_response (s := popEdge s) hrst hport, if_pos htake,
      takeResponse_of_response (s := popEdge s) hport]
    rfl

/-- Settles O15: the busy edges only use up their samples, so the command is performed on the registers it was accepted with. -/
theorem everyLatencyCompletes : Obligations.EveryLatencyCompletes := by
  intro s c es e rest hport hinputs hes hrst hbusy
  obtain ⟨t, ht⟩ : ∃ t, perform c (record c { s with inputs := rest }) = .next t := ⟨_, perform_eq_applyTo c _⟩
  have hrun : stepN (es.length + 1) s = .next t := stepN_until_performed hport hinputs hes hrst hbusy ht 0
  obtain ⟨r, hr⟩ := port_of_perform ht
  exact ⟨hrun.trans ht.symm, t, hrun, rspValid_of_response hr⟩

/-- R170's duty of the host, at an edge where the CIU is not ready: the next edge presents the same command. -/
theorem presented_of_hostHolds {s : State} {e f : Edge} {es : List Edge} (hinputs : s.inputs = e :: f :: es)
    (hport : s.port ≠ .ready) (hvalid : e.cmdValid = true) (h : hostHolds s = true) :
    f.cmdValid = true ∧ f.cmd = e.cmd ∧ f.arg = e.arg := by
  simpa [hostHolds, hinputs, hvalid, cmdReady_of_port_ne_ready hport, and_assoc] using h

/-- Settles O16: the edge that takes the response makes the port ready, and the next accepts what is still presented. -/
theorem presentedCommandIsAccepted : Obligations.PresentedCommandIsAccepted := by
  intro s r e f rest hport hinputs herst hfrst htake hvalid hholds
  obtain ⟨hfvalid, hcmd, harg⟩ := presented_of_hostHolds hinputs (by simp [hport]) hvalid hholds
  refine ⟨_, (stepN_until_taken (es := []) hport hinputs nofun herst htake 1).trans
    (stepN_until_accepted (es := []) rfl rfl nofun hfrst hfvalid 0), ?_⟩
  rw [hcmd, harg]

end Sys2Proof.Machine
end

section
/-! Returning to the registers of reset by commands (spec/70_reset_and_hazards.md R161). -/

namespace Sys2Proof.Machine

theorem runProgram_cons (c : Command) (cs : List Command) (s : State) :
    runProgram (c :: cs) s = runProgram cs (afterTransaction c s) := by
  rw [runProgram, transact_eq_afterTransaction]

section
variable (i : Instr) (s : State)

theorem afterTransaction_encode_crcState :
    (afterTransaction (encode i) s).crcState = (effect s.crcState s.typeReg (.ok i)).crcState.getD s.crcState := by
  rw [afterTransaction, decode_encode]
  rfl

theorem afterTransaction_encode_typeReg :
    (afterTransaction (encode i) s).typeReg = (effect s.crcState s.typeReg (.ok i)).typeReg.getD s.typeReg := by
  rw [afterTransaction, decode_encode]
  rfl

end

/-- Settles O56: each of the three commands writes its register, those after it keep that register, and STAT_CLEAR comes last
because TYPE_LOAD 0 sets a bit. -/
theorem commandsReturnToReset : Obligations.CommandsReturnToReset := by
  intro s
  refine ⟨afterTransaction (encode .statClear) (afterTransaction (encode .crcInit)
    (afterTransaction (encode (.typeLoad 0)) s)), ?_, ?_, ?_, ?_⟩
  · rw [List.map_cons, List.map_cons, List.map_cons, runProgram_cons, runProgram_cons, runProgram_cons]
    rfl
  · rw [afterTransaction_encode_crcState, afterTransaction_encode_crcState]
    rfl
  · rw [afterTransaction_encode_typeReg, afterTransaction_encode_typeReg, afterTransaction_encode_typeReg]
    rfl
  · rw [afterTransaction_encode_status]
    rfl

end Sys2Proof.Machine
end
